-- ==== Sys2Proof/Word.lean ====
section
/-! DEFINITION. The word types of MBCV (00_scope.md R12, R13) and the seven-byte MBAP header. A type here is a width only:
what a value means (signed, floating) is said where it is read. -/

namespace Sys2Proof

/-- A byte: bit 7 is the most significant (R12). -/
abbrev Byte := BitVec 8

/-- `u8` (R13). -/
abbrev U8 := BitVec 8

/-- `u16` (R13). -/
abbrev U16 := BitVec 16

/-- `s16` (R13, R70): sixteen bits read as two's complement, by `BitVec.toInt`. -/
abbrev S16 := BitVec 16

/-- `f64` (R77): the 64 bits of an IEEE 754 binary64, sign bit 63, biased exponent 62:52, fraction 51:0. -/
abbrev F64 := BitVec 64

/-- The command word (R59). -/
abbrev CommandWord := BitVec 64

/-- The MBAP header of a received frame (R48): offsets 0, 2, 4 and 6. No field of it is inspected (R55). -/
structure Mbap where
  transactionId : U16
  protocolId : U16
  lengthField : U16
  unitId : U8
deriving DecidableEq, Repr

end Sys2Proof
end

