-- ==== Sys2Proof/Config.lean ====
section
/-! DEFINITION. The free values: what the spec calls unspecified (93_implementation_defined.md U1 to U5) and takes as "an
arbitrary value it assumes nothing of" (R11). None of them has a body, so nothing can be proved of a value. The first argument
is the occasion (State.fresh, which every step that may use a free value advances), the second the place: an index or an
offset. notes/assumptions/2.md and 10.md. MBCV has no other parameter (R11). -/

namespace Sys2Proof

/-- An unspecified 16-bit value: RV[i] in place `i`; TID, ADDR and QTY in places 127, 128 and 129. -/
opaque Config.freeWord : Nat → Nat → BitVec 16

/-- An unspecified byte: of a buffer, by offset; UID in place 0. -/
opaque Config.freeByte : Nat → Nat → BitVec 8

/-- An unspecified float: VEL[k] in place `k`. -/
opaque Config.freeFloat : Nat → Nat → BitVec 64

/-- The result of an addition or division the spec has no rule for (R84: an operand that is infinite or NaN, a zero divisor).
CONVERT never meets one. -/
opaque Config.floatWithoutRule : F64 → F64 → F64

end Sys2Proof
end

