-- ==== Sys2Proof/Syntax.lean ====
section
/-! DEFINITION. The instructions of MBCV: one constructor per row of spec/opcode_table.json. The first five are what the host
can present as a command word (R59, R60). The last five are the frames that cross the host's transport (R46): the request
going out, and the four classes of a received byte sequence (R53) coming in. notes/assumptions/6.md says what step each of
the frame rows stands for. -/

namespace Sys2Proof

inductive Instr where
  /-- ENCODE (R62): build the request frame from four operands. -/
  | encode (tid : U16) (uid : U8) (addr qty : U16)
  /-- DECODE (R64): validate the received bytes and extract the register values. -/
  | decode
  /-- CONVERT (R73): the first twelve register values into six floats. -/
  | convert
  /-- PIPE (R89): decode, count check, convert, for the request in flight. -/
  | pipe
  /-- CMD.RESERVED (R60): a command word that matches no row of R59's table. -/
  | cmdReserved (word : CommandWord)
  /-- FRAME.REQ (R47): the twelve-byte request frame with these operands, on its way out. -/
  | frameReq (tid : U16) (uid : U8) (addr qty : U16)
  /-- FRAME.RSP (R48): a normal response: header, byteCount / 2 register values, then bytes after the frame (R56). -/
  | frameRsp (mbap : Mbap) (values : List S16) (trailing : List Byte)
  /-- FRAME.EXC (R49): an exception response: header, low seven bits of the function code, exception code, bytes after (R56). -/
  | frameExc (mbap : Mbap) (functionLow : BitVec 7) (code : U8) (trailing : List Byte)
  /-- FRAME.ILLEGAL (R53 tests 2, 4, 5, 6): received bytes that are neither RSP nor EXC. -/
  | frameIllegal (bytes : List Byte)
  /-- FRAME.NONE (R53 test 1): the empty received sequence. -/
  | frameNone
deriving DecidableEq, Repr

end Sys2Proof
end

