-- ==== Sys2Proof/WellFormed.lean ====
section
/-! DEFINITION. Which instructions an encoding can hold. Written from the spec's own words for each class (R53, R59, R60), not
from the decoder, so that decoder and check can be compared. -/

namespace Sys2Proof

/-- R60: a command word that matches no row of R59's table: OP = 0, 5, 6 or 7; bits 7:3 not all zero; OP = 2, 3 or 4 with any
of bits 63:8 set. -/
def reservedWord (w : CommandWord) : Bool :=
  let op := w.extractLsb' 0 3
  op == 0#3 || op == 5#3 || op == 6#3 || op == 7#3 || w.extractLsb' 3 5 != 0#5 ||
    (op != 1#3 && w.extractLsb' 8 56 != 0#56)

/-- R53 tests 2, 4, 5 and 6: received bytes that hold no frame. `byte k` is the byte at offset `k`. -/
def illegalSequence (bytes : List Byte) : Bool :=
  let byte := fun k => bytes.getD k 0#8
  (1 ≤ bytes.length && bytes.length ≤ 8) ||
    (9 ≤ bytes.length && !(byte 7).msb &&
      (byte 7 != 0x03#8 || (byte 8).toNat % 2 == 1 || bytes.length < 9 + (byte 8).toNat))

/-- byteCount is one byte and even, so a response carries at most 127 values (R18). -/
abbrev maxValues : Nat := 127

def Instr.wf : Instr → Bool
  | .encode _ _ _ _ => true
  | .decode => true
  | .convert => true
  | .pipe => true
  | .cmdReserved w => reservedWord w
  | .frameReq _ _ _ _ => true
  | .frameRsp _ values _ => values.length ≤ maxValues
  | .frameExc _ _ _ _ => true
  | .frameIllegal bytes => illegalSequence bytes
  | .frameNone => true

end Sys2Proof
end

