-- ==== Sys2Proof/Decode.lean ====
section
/-! DEFINITION. Encodings (30_encoding.md): the command word, the request frame, the received byte sequences. The decoder is
total and refuses by name; the encoder after it is written from the same tables. -/

namespace Sys2Proof

/-- What carries an instruction: the command word the host presents (R59), the bytes it hands over as received (R92), or the
bytes it takes out of TXB to send (R94). -/
inductive Code where
  | command (word : CommandWord)
  | received (bytes : List Byte)
  | request (bytes : List Byte)
deriving DecidableEq, Repr

/-- Why a sent byte string is no request frame. Safe: raised by `decodeRequest` only. -/
inductive Reject where
  /-- Not exactly twelve bytes (R46). -/
  | requestLength
  /-- A constant field of R47 has another value: protocolId, length or functionCode (R51). -/
  | requestConstants
deriving DecidableEq, Repr

/-! ## Bytes and words, big-endian (R34, R50) -/

/-- `v[15:8]`. -/
def highByte (v : U16) : Byte := v.extractLsb' 8 8

/-- `v[7:0]`. -/
def lowByte (v : U16) : Byte := v.extractLsb' 0 8

/-- `{hi, lo}` = hi * 256 + lo (R50). -/
def joinBytes (hi lo : Byte) : U16 := hi ++ lo

/-- The bytes of a sequence of 16-bit values, each high byte first. -/
def bytesOfWords : List U16 → List Byte
  | [] => []
  | v :: vs => highByte v :: lowByte v :: bytesOfWords vs

/-- The values of a byte sequence, two bytes each; an odd last byte is no value. -/
def wordsOfBytes : List Byte → List U16
  | hi :: lo :: bytes => joinBytes hi lo :: wordsOfBytes bytes
  | _ => []

/-- `n` bytes of a number, most significant first: how the opcode table numbers a frame (bit 0 is the last bit). -/
def bytesOfNat : Nat → Nat → List Byte
  | 0, _ => []
  | n + 1, w => bytesOfNat n (w / 256) ++ [BitVec.ofNat 8 w]

/-! ## Constants (R8) -/

/-- `FC_READ`. -/
abbrev fcRead : U8 := 0x03#8

/-- `PROTO`. -/
abbrev protoField : U16 := 0x0000#16

/-- `REQ_LEN_FIELD`. -/
abbrev reqLenField : U16 := 0x0006#16

/-! ## The command word (R59, R60) -/

/-- `(cmd AND mask) = match`. -/
def matchesRow (mask pattern w : CommandWord) : Bool := w &&& mask == pattern

def decodeCommand (w : CommandWord) : Instr :=
  if matchesRow 0x00000000000000FF#64 0x0000000000000001#64 w then
    .encode (w.extractLsb' 16 16) (w.extractLsb' 8 8) (w.extractLsb' 32 16) (w.extractLsb' 48 16)
  else if matchesRow 0xFFFFFFFFFFFFFFFF#64 0x0000000000000002#64 w then .decode
  else if matchesRow 0xFFFFFFFFFFFFFFFF#64 0x0000000000000003#64 w then .convert
  else if matchesRow 0xFFFFFFFFFFFFFFFF#64 0x0000000000000004#64 w then .pipe
  else .cmdReserved w

/-! ## Received bytes (R53) -/

/-- The MBAP header of the first seven bytes (R48). -/
def mbapOfBytes (b0 b1 b2 b3 b4 b5 b6 : Byte) : Mbap :=
  { transactionId := joinBytes b0 b1, protocolId := joinBytes b2 b3, lengthField := joinBytes b4 b5, unitId := b6 }

/-- R53's classification of a received sequence of any length, its tests in their order. -/
def decodeReceived : List Byte → Instr
  | [] => .frameNone
  | b0 :: b1 :: b2 :: b3 :: b4 :: b5 :: b6 :: fc :: b8 :: rest =>
    if fc.msb then .frameExc (mbapOfBytes b0 b1 b2 b3 b4 b5 b6) (fc.extractLsb' 0 7) b8 rest
    else if fc ≠ fcRead then .frameIllegal (b0 :: b1 :: b2 :: b3 :: b4 :: b5 :: b6 :: fc :: b8 :: rest)
    else if b8.toNat % 2 = 1 then .frameIllegal (b0 :: b1 :: b2 :: b3 :: b4 :: b5 :: b6 :: fc :: b8 :: rest)
    else if rest.length < b8.toNat then .frameIllegal (b0 :: b1 :: b2 :: b3 :: b4 :: b5 :: b6 :: fc :: b8 :: rest)
    else .frameRsp (mbapOfBytes b0 b1 b2 b3 b4 b5 b6) (wordsOfBytes (rest.take b8.toNat)) (rest.drop b8.toNat)
  | bytes => .frameIllegal bytes

/-! ## The request frame (R47) -/

def decodeRequest : List Byte → Except Reject Instr
  | [t1, t0, p1, p0, l1, l0, u, fc, a1, a0, q1, q0] =>
    if joinBytes p1 p0 = protoField ∧ joinBytes l1 l0 = reqLenField ∧ fc = fcRead then
      .ok (.frameReq (joinBytes t1 t0) u (joinBytes a1 a0) (joinBytes q1 q0))
    else .error .requestConstants
  | _ => .error .requestLength

/-- The decoder: every code has an instruction or a named reason why not. -/
def decodeCode : Code → Except Reject Instr
  | .command w => .ok (decodeCommand w)
  | .received bytes => .ok (decodeReceived bytes)
  | .request bytes => decodeRequest bytes

/-! ## The encoder -/

/-- The seven header bytes (R48). -/
def mbapBytes (m : Mbap) : List Byte :=
  [highByte m.transactionId, lowByte m.transactionId, highByte m.protocolId, lowByte m.protocolId,
    highByte m.lengthField, lowByte m.lengthField, m.unitId]

/-- The twelve bytes of R47, in order. -/
def requestBytes (tid : U16) (uid : U8) (addr qty : U16) : List Byte :=
  [highByte tid, lowByte tid, highByte protoField, lowByte protoField, highByte reqLenField, lowByte reqLenField,
    uid, fcRead, highByte addr, lowByte addr, highByte qty, lowByte qty]

/-- The bytes of a normal response (R48): byteCount is twice the number of values. -/
def responseBytes (m : Mbap) (values : List S16) (trailing : List Byte) : List Byte :=
  mbapBytes m ++ fcRead :: BitVec.ofNat 8 (2 * values.length) :: (bytesOfWords values ++ trailing)

/-- The bytes of an exception response (R49): function code with bit 7 set, then the code. -/
def exceptionBytes (m : Mbap) (functionLow : BitVec 7) (code : U8) (trailing : List Byte) : List Byte :=
  mbapBytes m ++ (1#1 ++ functionLow) :: code :: trailing

/-- The words of an instruction. -/
def encode : Instr → Code
  | .encode tid uid addr qty => .command (qty ++ addr ++ tid ++ uid ++ 0x01#8)
  | .decode => .command 0x0000000000000002#64
  | .convert => .command 0x0000000000000003#64
  | .pipe => .command 0x0000000000000004#64
  | .cmdReserved w => .command w
  | .frameReq tid uid addr qty => .request (requestBytes tid uid addr qty)
  | .frameRsp m values trailing => .received (responseBytes m values trailing)
  | .frameExc m functionLow code trailing => .received (exceptionBytes m functionLow code trailing)
  | .frameIllegal bytes => .received bytes
  | .frameNone => .received []

/-! ## The opcode table's numbering -/

/-- A received sequence given by its first nine bytes: the data bytes that its byteCount names are zeros (none for any other
class than RSP). -/
def withZeroData (bytes : List Byte) : List Byte :=
  if bytes.getD 7 0#8 = fcRead then bytes ++ List.replicate (bytes.getD 8 0#8).toNat 0#8 else bytes

/-- The code whose bits, numbered as spec/opcode_table.json numbers its row, are `w`. The row's width says which row it is:
command rows are 64 bits wide (fixed part in one byte), received frames 72 bits (the first nine bytes, fixed part in the last
two), the request frame 96 bits; no bits at all is the empty sequence. notes/assumptions/11.md. -/
def tableCode (nbits w : Nat) : Code :=
  if nbits = 0 then .received []
  else if nbits ≤ 8 ∨ (16 < nbits ∧ nbits ≤ 64) then .command (BitVec.ofNat 64 w)
  else if nbits ≤ 72 then .received (withZeroData (bytesOfNat 9 w))
  else .request (bytesOfNat 12 w)

/-- The instruction the decoder reads from `tableCode nbits w`. -/
def decodeTableWord (nbits w : Nat) : Option Instr :=
  match decodeCode (tableCode nbits w) with
  | .ok i => some i
  | .error _ => none

end Sys2Proof
end

