-- ==== Sys2Proof/Machine/State.lean ====
section
/-! DEFINITION. The state of MBCV: the thirteen elements of 10_state.md R17, and three fields of the model's own (fresh,
pending, hostView). Plain data throughout. -/

namespace Sys2Proof.Machine

/-- A byte buffer as a list of (offset, byte), offsets strictly rising. An offset that is not listed has no value: it is the
spec's "unspecified" (U1, U5). notes/assumptions/3.md. -/
abbrev Memory := List Host.Cell

/-- The two buffers that are MBCV's own (20_memory.md R32). -/
inductive Buffer where
  /-- TXB, the request frame (R24). -/
  | txb
  /-- RXB, the received response (R25). -/
  | rxb
deriving DecidableEq, Repr

/-- The elements the host can read (R17's table, column "host read"; R93). -/
inductive Element where
  | rv (i : Fin 127)
  | rvcnt
  | vel (k : Fin 6)
  | velvalid
  | tid
  | uid
  | addr
  | qty
  | inflight
  | txb (offset : Nat)
  | rxb (offset : Nat)
  | rxlen
  | status
deriving DecidableEq, Repr

/-- What a host read or send hands over, by kind of element. -/
inductive HostValue where
  /-- RV[i], TID, ADDR, QTY, STATUS. -/
  | word (v : BitVec 16)
  /-- UID, a byte of TXB or RXB. -/
  | byte (v : BitVec 8)
  /-- RVCNT, RXLEN. -/
  | count (n : Nat)
  /-- VELVALID, INFLIGHT. -/
  | flag (b : Bool)
  /-- VEL[k]. -/
  | float (v : F64)
  /-- The twelve bytes of TXB, for the transport (R94 step 2). -/
  | frame (bytes : List Byte)
deriving DecidableEq, Repr

/-- What the host can do to the block (R129): RESET (R116), present a command word (R59), LOADRX (R92; `[]` is
`LOADRX <none>`), copy TXB to its transport (R94 step 2), read an element (R93). -/
inductive HostAction where
  | reset
  | command (word : CommandWord)
  | loadrx (bytes : List Byte)
  | send
  | read (e : Element)
deriving DecidableEq, Repr

/-- The four failure kinds (60_exceptions.md R98). -/
inductive Failure where
  | noResponse
  | malformedResponse
  | protocolException (code : U8)
  | invalidRegisterCount
deriving DecidableEq, Repr

/-- Where a failure is raised (R105): the decode tests, the count check of PIPE, or the count test of the convert stage. -/
inductive Stage where
  | decode
  | count
  | convert
deriving DecidableEq, Repr

structure State where
  /-- RV[0 … 126] (R18). -/
  rv : Vector S16 127
  /-- RVCNT (R19). -/
  rvcnt : BitVec 7
  /-- VEL[0 … 5] (R20): linear x, y, z, angular x, y, z. -/
  vel : Vector F64 6
  /-- VELVALID (R21). -/
  velvalid : Bool
  /-- TID (R22). -/
  tid : U16
  /-- UID (R22). -/
  uid : U8
  /-- ADDR (R22). -/
  addr : U16
  /-- QTY (R22). -/
  qty : U16
  /-- INFLIGHT (R23). -/
  inflight : Bool
  /-- TXB[0 … 11] (R24). -/
  txb : Memory
  /-- RXB[0 … 262] (R25). -/
  rxb : Memory
  /-- RXLEN (R26). -/
  rxlen : BitVec 9
  /-- STATUS (R27). -/
  status : BitVec 16
  /-- The model's own: the occasion the next free values belong to (notes/assumptions/2.md). -/
  fresh : Nat
  /-- The model's own: the host's actions still to come, the next one first (notes/assumptions/4.md). -/
  pending : List HostAction
  /-- The model's own: what the host's last read or send handed it (notes/assumptions/5.md). -/
  hostView : Option HostValue
deriving DecidableEq, Repr

/-- Why the machine stops with a fault. -/
inductive Fault where
  /-- The host reads a byte at an offset the buffer does not have (R32: TXB has offsets 0 … 11, RXB 0 … 262). Raised by the
  host action `read` only, never by an operation (R38). Safe: the spec gives the read no meaning. -/
  | noSuchByte (buffer : Buffer) (offset : Nat)
deriving DecidableEq, Repr

/-- Why the machine has no step. -/
inductive Refusal where
  /-- No meaning written yet. No arm of `exec` raises it. Safe. -/
  | notModelled (mnemonic : String)
  /-- The command word is a reserved encoding (R60, R96). Raised by CMD.RESERVED. Safe: the spec says a model has no step. -/
  | reservedCommand (word : CommandWord)
  /-- PIPE with INFLIGHT = 0 (R89, R96). Raised by PIPE. Safe: the spec says a model has no step. -/
  | noRequestInFlight
deriving DecidableEq, Repr

/-- The state right after RESET (R117). RVCNT, VELVALID, INFLIGHT, RXLEN and STATUS are the spec's. The spec leaves RV, VEL,
TID, UID, ADDR and QTY unspecified; here they are zero (DESIGN CHOICE, unsafe: notes/assumptions/1.md). TXB and RXB are
unspecified and list nothing (notes/assumptions/3.md). -/
def State.reset : State where
  rv := Vector.replicate 127 0#16
  rvcnt := 0#7
  vel := Vector.replicate 6 0#64
  velvalid := false
  tid := 0#16
  uid := 0#8
  addr := 0#16
  qty := 0#16
  inflight := false
  txb := []
  rxb := []
  rxlen := 0#9
  status := 0x0000#16
  fresh := 0
  pending := []
  hostView := none

end Sys2Proof.Machine
end

