-- ==== Sys2Proof/Machine/Flags.lean ====
section
/-! DEFINITION. STATUS (10_state.md R27, 60_exceptions.md R98): the codes of KIND, the register's word, its two fields. MBCV has
no arithmetic flags (R29) and no floating-point flags (R84). -/

namespace Sys2Proof.Machine

/-- KIND = NONE: nothing has completed since reset. -/
abbrev kindNone : BitVec 3 := 0#3

/-- KIND = OK. -/
abbrev kindOk : BitVec 3 := 1#3

/-- The code a failure takes in STATUS.KIND (R98). -/
def Failure.kind : Failure → BitVec 3
  | .noResponse => 2#3
  | .malformedResponse => 3#3
  | .protocolException _ => 4#3
  | .invalidRegisterCount => 5#3

/-- What a failure records in STATUS.EXC: the exception code, else 0 (R105). -/
def Failure.exc : Failure → U8
  | .noResponse => 0#8
  | .malformedResponse => 0#8
  | .protocolException code => code
  | .invalidRegisterCount => 0#8

/-- STATUS with these fields; bits 7:3 are hard-wired 0. -/
def statusWord (kind : BitVec 3) (exc : U8) : BitVec 16 := exc ++ 0#5 ++ kind

/-- STATUS as it is read: bits 7:3 read as 0. -/
def State.readStatus (s : State) : BitVec 16 := s.status &&& 0xFF07#16

/-- STATUS.KIND, bits 2:0. -/
def State.kind (s : State) : BitVec 3 := s.status.extractLsb' 0 3

/-- STATUS.EXC, bits 15:8. -/
def State.exc (s : State) : U8 := s.status.extractLsb' 8 8

end Sys2Proof.Machine
end

