-- ==== Sys2Proof/Machine/Ops.lean ====
section
/-! DEFINITION. The named operations over buffers and registers, and the raising of a failure (R105), MBCV's analogue of taking
an exception. Each update of the state that a rule makes is one operation here. -/

namespace Sys2Proof.Machine

/-! ## A buffer's memory -/

/-- The byte at an offset, if the offset is listed. -/
def Memory.read : Memory → Nat → Option Byte
  | [], _ => none
  | (a, b) :: m, offset => if offset = a then some b else Memory.read m offset

/-- Writes one byte, keeping the offsets strictly rising. -/
def Memory.write : Memory → Nat → Byte → Memory
  | [], offset, v => [(offset, v)]
  | (a, b) :: m, offset, v =>
    if offset < a then (offset, v) :: (a, b) :: m
    else if offset = a then (offset, v) :: m
    else (a, b) :: Memory.write m offset v

/-- The memory that lists exactly these bytes, from an offset on. -/
def Memory.ofBytes : Nat → List Byte → Memory
  | _, [] => []
  | offset, b :: bytes => (offset, b) :: Memory.ofBytes (offset + 1) bytes

/-- The canonical form: offsets strictly rising. Every listed entry differs from what an unlisted offset reads as, since that
is no value at all. -/
abbrev Memory.wf (m : Memory) : Prop := m.Pairwise (fun x y => x.1 < y.1)

/-- Every listed offset is below a bound. -/
abbrev Memory.below (m : Memory) (bound : Nat) : Prop := ∀ cell ∈ m, cell.1 < bound

/-- How many bytes a buffer has (R32). -/
def Buffer.size : Buffer → Nat
  | .txb => 12
  | .rxb => 263

def State.buffer (s : State) : Buffer → Memory
  | .txb => s.txb
  | .rxb => s.rxb

/-- One byte of a buffer. An unlisted byte is unspecified: a free value of this occasion (U1, U5). -/
def bufferByte (buf : Buffer) (offset : Nat) (s : State) : Byte :=
  match Memory.read (s.buffer buf) offset with
  | some b => b
  | none => Config.freeByte s.fresh offset

/-- `MemRead(buf, off, 1)` (R35). -/
def memRead1 (buf : Buffer) (offset : Nat) (s : State) : U8 := bufferByte buf offset s

/-- `MemRead(buf, off, 2)` (R35): big-endian. -/
def memRead2 (buf : Buffer) (offset : Nat) (s : State) : U16 :=
  joinBytes (bufferByte buf offset s) (bufferByte buf (offset + 1) s)

/-- `MemWrite(buf, off, 1, v)` (R35). -/
def memWrite1 (buf : Buffer) (offset : Nat) (v : U8) (s : State) : State :=
  match buf with
  | .txb => { s with txb := Memory.write s.txb offset v }
  | .rxb => { s with rxb := Memory.write s.rxb offset v }

/-- `MemWrite(buf, off, 2, v)` (R35): most significant byte at `off`. -/
def memWrite2 (buf : Buffer) (offset : Nat) (v : U16) (s : State) : State :=
  memWrite1 buf (offset + 1) (lowByte v) (memWrite1 buf offset (highByte v) s)

/-- All twelve bytes of TXB, as the host takes them. -/
def txBytes (s : State) : List Byte := (List.range 12).map (fun offset => bufferByte .txb offset s)

/-! ## Registers -/

/-- The free values of this occasion are used up. -/
def State.tick (s : State) : State := { s with fresh := s.fresh + 1 }

def State.setPending (s : State) (actions : List HostAction) : State := { s with pending := actions }

/-- Hands a value to the host. -/
def State.handOver (s : State) (v : HostValue) : State := { s with hostView := some v }

/-- STATUS is written whole, by every operation, at its end (R27). -/
def State.setStatus (s : State) (kind : BitVec 3) (exc : U8) : State := { s with status := statusWord kind exc }

/-- ENCODE's latching of its operands, with INFLIGHT <- 1 (R22, R23, R62). -/
def State.latchRequest (s : State) (tid : U16) (uid : U8) (addr qty : U16) : State :=
  { s with tid := tid, uid := uid, addr := addr, qty := qty, inflight := true }

/-- INFLIGHT <- 0 (R23). -/
def State.clearInflight (s : State) : State := { s with inflight := false }

/-- RV after a decode of `n` values: RV[0 … n-1] are the values, RV[n … 126] unspecified (R18). Its entries are read by
`decodedRegisters_getElem` (Laws/Ops.lean); the definition is kept folded in proofs. -/
@[irreducible] def decodedRegisters (n : Nat) (value : Nat → S16) (fresh : Nat) : Vector S16 127 :=
  Vector.ofFn (fun i : Fin 127 => if i.val < n then value i.val else Config.freeWord fresh i.val)

/-- RV with every entry unspecified. -/
@[irreducible] def freeRegisters (fresh : Nat) : Vector S16 127 :=
  Vector.ofFn (fun i : Fin 127 => Config.freeWord fresh i.val)

/-- VEL with every entry unspecified. -/
def freeVelocities (fresh : Nat) : Vector F64 6 := Vector.ofFn (fun k : Fin 6 => Config.freeFloat fresh k.val)

/-- A decode result of `n` values: RV[0 … n-1] <- values, RV[n … 126] <- unspecified, RVCNT <- n (R18, R64). -/
def State.setRegisters (s : State) (n : Nat) (value : Nat → S16) : State :=
  { s with rv := decodedRegisters n value s.fresh, rvcnt := BitVec.ofNat 7 n }

/-- A failed decode: RVCNT <- 0, RV[0 … 126] <- unspecified (R105). -/
def State.invalidateRegisters (s : State) : State :=
  { s with rv := freeRegisters s.fresh, rvcnt := 0#7 }

/-- A conversion result: VEL[k] <- value k, VELVALID <- 1 (R73). -/
def State.setVelocities (s : State) (value : Fin 6 → F64) : State :=
  { s with vel := Vector.ofFn value, velvalid := true }

/-- A failed conversion: VELVALID <- 0, VEL[0 … 5] <- unspecified (R105). -/
def State.invalidateVelocities (s : State) : State :=
  { s with vel := freeVelocities s.fresh, velvalid := false }

/-- LOADRX (R92): the first 263 bytes of the received sequence, RXB[n … 262] <- unspecified, RXLEN <- n. -/
def State.loadReceived (s : State) (bytes : List Byte) : State :=
  { s with
    rxb := Memory.ofBytes 0 (bytes.take Buffer.rxb.size)
    rxlen := BitVec.ofNat 9 (min bytes.length Buffer.rxb.size) }

/-! ## Ending an operation -/

/-- `done`: STATUS.KIND <- OK, STATUS.EXC <- 0 (R14). -/
def finishOk (s : State) : State := (s.setStatus kindOk 0#8).tick

/-- What a failed stage leaves of its output (R105), by where the failure was raised. -/
def invalidateStage (stage : Stage) (inPipe : Bool) (s : State) : State :=
  match stage, inPipe with
  | .decode, false => s.invalidateRegisters
  | .decode, true => s.invalidateRegisters.invalidateVelocities
  | .count, _ => s.invalidateVelocities
  | .convert, _ => s.invalidateVelocities

/-- `raise` (R14, R105): the operation ends with a failure. STATUS records it, the failed stage's output is invalidated, and
in PIPE INFLIGHT <- 0. Nothing else changes: no context is saved and control goes nowhere. Return from it does not exist
(R107): the host goes on with any command. -/
def raiseFailure (k : Failure) (stage : Stage) (inPipe : Bool) (s : State) : State :=
  let invalidated := invalidateStage stage inPipe s
  let released := if inPipe then invalidated.clearInflight else invalidated
  (released.setStatus k.kind k.exc).tick

end Sys2Proof.Machine
end

