-- ==== Sys2Proof/Machine/Operands.lean ====
section
/-! DEFINITION. Operand forms: fields of a buffer (30_encoding.md R50), the effective offset of register data (R71), the
register pairs of CONVERT (R52). -/

namespace Sys2Proof.Machine

/-- `OFF_FC` (R8). -/
abbrev offsetFunctionCode : Nat := 7

/-- `OFF_BC` (R8): byteCount of a normal response, exception code of an exception response. -/
abbrev offsetByteCount : Nat := 8

/-- `OFF_DATA` (R8). -/
abbrev offsetData : Nat := 9

/-- `RSP_MIN` (R8). -/
abbrev responseMin : Nat := 9

/-- `NCONV` (R8). -/
abbrev valuesConverted : Nat := 12

/-- `EA(i) = 9 + 2*i` (R71). -/
def registerOffset (i : Nat) : Nat := offsetData + 2 * i

/-- `toS16` (R13, R70): the same sixteen bits, read as two's complement. -/
def toS16 (w : U16) : S16 := w

/-- `u16be(b, o)` (R50). -/
def u16be (buf : Buffer) (offset : Nat) (s : State) : U16 := memRead2 buf offset s

/-- `s16be(b, o)` (R50). -/
def s16be (buf : Buffer) (offset : Nat) (s : State) : S16 := toS16 (u16be buf offset s)

/-- `put16be(b, o, v)` (R50). -/
def put16be (buf : Buffer) (offset : Nat) (v : U16) (s : State) : State := memWrite2 buf offset v s

/-- The integerPart of pair `k`: RV[2k] (R52). -/
def integerPart (s : State) (k : Fin 6) : S16 := s.rv[2 * k.val]'(by omega)

/-- The fractionalPart of pair `k`: RV[2k + 1] (R52). -/
def fractionalPart (s : State) (k : Fin 6) : S16 := s.rv[2 * k.val + 1]'(by omega)

end Sys2Proof.Machine
end

