-- ==== Sys2Proof/Machine/FrameCodec.lean ====
section
/-! DEFINITION. The FrameCodec operations ENCODE and DECODE (40_framecodec.md). -/

namespace Sys2Proof.Machine

/-- The seven stores of ENCODE (R62, R72). -/
def storeRequest (tid : U16) (uid : U8) (addr qty : U16) (s : State) : State :=
  let s := put16be .txb 0 tid s
  let s := put16be .txb 2 protoField s
  let s := put16be .txb 4 reqLenField s
  let s := memWrite1 .txb 6 uid s
  let s := memWrite1 .txb 7 fcRead s
  let s := put16be .txb 8 addr s
  put16be .txb 10 qty s

/-- ENCODE (R62). Total: no operand value is rejected or changed (R63). -/
def execEncode (tid : U16) (uid : U8) (addr qty : U16) (s : State) : Host.Outcome State Fault Refusal :=
  .next (finishOk ((storeRequest tid uid addr qty s).latchRequest tid uid addr qty))

/-- The tests of DECODE in their order (R64, R53, R104): the first failure, or the number of values the response carries.
`len` is the received length, `fc` the byte at offset 7 and `bc` the byte at offset 8; the two bytes decide only when `len` is
at least 9 (R38). `9 + bc` is a natural number, never computed in 8 bits (R69). -/
def responseTests (len : Nat) (fc bc : U8) : Except Failure Nat :=
  if len = 0 then .error .noResponse
  else if len < responseMin then .error .malformedResponse
  else if fc.msb then .error (.protocolException bc)
  else if fc ≠ fcRead then .error .malformedResponse
  else if bc.toNat % 2 = 1 then .error .malformedResponse
  else if len < offsetData + bc.toNat then .error .malformedResponse
  else .ok (bc.toNat / 2)

/-- DECODE's tests on what RXLEN and RXB hold. -/
def decodeTests (s : State) : Except Failure Nat :=
  responseTests s.rxlen.toNat (memRead1 .rxb offsetFunctionCode s) (memRead1 .rxb offsetByteCount s)

/-- The values of the response, RV[i] from offset 9 + 2i (R64, R71). -/
def receivedValue (s : State) (i : Nat) : S16 := s16be .rxb (registerOffset i) s

/-- DECODE's body up to and including "RVCNT <- n" (R64), shared with PIPE's first stage (R89). -/
def decodeStage (s : State) : Except Failure State :=
  match decodeTests s with
  | .ok n => .ok (s.setRegisters n (receivedValue s))
  | .error k => .error k

/-- DECODE (R64). The count is not compared with QTY (R66). -/
def execDecode (s : State) : Host.Outcome State Fault Refusal :=
  match decodeStage s with
  | .ok decoded => .next (finishOk decoded)
  | .error k => .next (raiseFailure k .decode false s)

end Sys2Proof.Machine
end

