-- ==== Sys2Proof/Machine/Float64.lean ====
section
/-! DEFINITION. The binary64 arithmetic of CONVERT (41_velocitydecoder.md R77 to R85), computed exactly and rounded once per
operation. Every finite binary64 is an integer multiple of 2^-1074; that integer is its value here, so the exact sum and
the exact quotient are an integer and a fraction of integers. -/

namespace Sys2Proof.Machine

/-- How many units of 2^-1074 make one. -/
def Float64.unitsPerOne : Nat := 2 ^ 1074

/-- Bit 63 (R77). -/
def Float64.sign (x : F64) : Bool := x.msb

/-- Bits 62:52, the biased exponent (R77). -/
def Float64.exponent (x : F64) : Nat := (x.extractLsb' 52 11).toNat

/-- Bits 51:0, the fraction (R77). -/
def Float64.fraction (x : F64) : Nat := (x.extractLsb' 0 52).toNat

/-- Neither infinity nor NaN (R77). -/
def Float64.finite (x : F64) : Bool := Float64.exponent x ≠ 2047

/-- The magnitude of a finite value, in units of 2^-1074 (R77): fraction alone when the exponent is 0, else
(2^52 + fraction) * 2^(exponent - 1). -/
def Float64.magnitude (x : F64) : Nat :=
  if Float64.exponent x = 0 then Float64.fraction x
  else (2 ^ 52 + Float64.fraction x) * 2 ^ (Float64.exponent x - 1)

/-- The value of a finite float, in units of 2^-1074. -/
def Float64.units (x : F64) : Int :=
  if Float64.sign x then -(Float64.magnitude x : Int) else (Float64.magnitude x : Int)

/-- The float with this sign and these low 63 bits (exponent and fraction as one number); a number past the largest finite
float is infinity (PRESUMED, IEEE 754; R84 shows it cannot happen). -/
def Float64.pack (negative : Bool) (body : Nat) : F64 :=
  BitVec.ofNat 64 ((if negative then 2 ^ 63 else 0) + min body (2047 * 2 ^ 52))

/-- The nearest natural number to `num / den`, of two equally near the even one. -/
def Float64.nearestEven (num den : Nat) : Nat :=
  let m := num / den
  let r := num % den
  if den < 2 * r ∨ (2 * r = den ∧ m % 2 = 1) then m + 1 else m

/-- The exponent step of a magnitude of `q` units (rounded down): 53 significant bits are kept, so the last kept bit weighs
2^step units. -/
def Float64.step (q : Nat) : Nat := Nat.log2 q - 52

/-- `RN` (R80): the binary64 nearest to the real number ± num / den (den > 0), ties to even. With `step` e, the kept
significand is the nearest even integer m to (num / den) / (2^e units); exponent and fraction together are then e * 2^52 + m,
whether the result is subnormal, normal, or m has just grown to 2^53. -/
def Float64.round (negative : Bool) (num den : Nat) : F64 :=
  let n := num * Float64.unitsPerOne
  let e := Float64.step (n / den)
  Float64.pack negative (e * 2 ^ 52 + Float64.nearestEven n (den * 2 ^ e))

/-- `cvt` (R78): the float equal to a 16-bit integer; `cvt 0` is +0. -/
def Float64.cvt (v : S16) : F64 := Float64.round (decide (v.toInt < 0)) v.toInt.natAbs 1

/-- `÷f` (R80). The sign of a zero quotient follows IEEE 754 (PRESUMED); CONVERT divides by +1000.0 only. -/
def Float64.div (a b : F64) : F64 :=
  if Float64.finite a && Float64.finite b && Float64.magnitude b != 0 then
    Float64.round (Float64.sign a != Float64.sign b) (Float64.magnitude a) (Float64.magnitude b)
  else Config.floatWithoutRule a b

/-- `+f` (R81). An exact zero sum is +0; the sum of two zeros of sign - is -0 (PRESUMED, IEEE 754; CONVERT never meets one). -/
def Float64.add (a b : F64) : F64 :=
  if Float64.finite a && Float64.finite b then
    let z := Float64.units a + Float64.units b
    if z = 0 then Float64.pack (Float64.sign a && Float64.sign b) 0
    else Float64.round (decide (z < 0)) z.natAbs Float64.unitsPerOne
  else Config.floatWithoutRule a b

/-- `SCALE` = 1000.0 (R79). -/
def Float64.scale : F64 := 0x408F400000000000#64

/-- A value VEL may hold when valid (R84): +0 or a normal number. -/
def Float64.zeroOrNormal (x : F64) : Bool :=
  x == 0#64 || (Float64.exponent x != 0 && Float64.exponent x != 2047)

/-- The pair conversion (R74): one division, and one addition unless the integer part is 0 and the fraction negative. -/
def pairconv (integer fractional : S16) : F64 :=
  let q := Float64.div (Float64.cvt fractional) Float64.scale
  if integer = 0#16 ∧ fractional.toInt < 0 then q else Float64.add (Float64.cvt integer) q

end Sys2Proof.Machine
end

