-- ==== Sys2Proof/Machine/VelocityDecoder.lean ====
section
/-! DEFINITION. The VelocityDecoder operation CONVERT (41_velocitydecoder.md). Its arithmetic is Machine/Float64.lean. -/

namespace Sys2Proof.Machine

/-- Lane `k` (R75): reads RV[2k] and RV[2k+1] only. -/
def lane (s : State) (k : Fin 6) : F64 := pairconv (integerPart s k) (fractionalPart s k)

/-- CONVERT's body (R73), shared with PIPE's last stage (R89). Fewer than twelve values fail; more are ignored (R76). -/
def convertStage (s : State) : Except Failure State :=
  if s.rvcnt.toNat < valuesConverted then .error .invalidRegisterCount
  else .ok (s.setVelocities (lane s))

/-- CONVERT (R73). -/
def execConvert (s : State) : Host.Outcome State Fault Refusal :=
  match convertStage s with
  | .ok converted => .next (finishOk converted)
  | .error k => .next (raiseFailure k .convert false s)

end Sys2Proof.Machine
end

