-- ==== Sys2Proof/Machine/Pipeline.lean ====
section
/-! DEFINITION. PIPE and the reserved command words (42_pipeline.md). -/

namespace Sys2Proof.Machine

/-- The count check (R90): RVCNT against QTY, as natural numbers. -/
def countMatches (s : State) : Bool := s.rvcnt.toNat == s.qty.toNat

/-- PIPE's stages after INFLIGHT <- 0 (R89): decode, count check, convert; the first failure ends it (R91). -/
def pipeStages (s : State) : State :=
  match decodeStage s with
  | .error k => raiseFailure k .decode true s
  | .ok decoded =>
    if !countMatches decoded then raiseFailure .malformedResponse .count true decoded
    else
      match convertStage decoded with
      | .error k => raiseFailure k .convert true decoded
      | .ok converted => finishOk converted

/-- PIPE (R89): refused when no request is in flight (R96), with no state change. -/
def execPipe (s : State) : Host.Outcome State Fault Refusal :=
  if s.inflight then .next (pipeStages s.clearInflight) else .refused .noRequestInFlight

/-- CMD.RESERVED (R60, R96): refused. No operation is performed and no state changes; "a model treats it as the machine has no
step for this command". -/
def execCmdReserved (word : CommandWord) (_s : State) : Host.Outcome State Fault Refusal :=
  .refused (.reservedCommand word)

end Sys2Proof.Machine
end

