-- ==== Sys2Proof/Machine/Wire.lean ====
section
/-! DEFINITION. The frames that cross the host's transport (30_encoding.md R46). A received byte sequence of any class arrives
by LOADRX, which writes RXB and RXLEN and nothing else (42_pipeline.md R92); DECODE and PIPE classify it afterwards. The
request frame leaves by the host's copying TXB (R94 step 2), which changes no element (20_memory.md R39).
notes/assumptions/6.md. -/

namespace Sys2Proof.Machine

/-- LOADRX (R92). -/
def loadrx (bytes : List Byte) (s : State) : State := (s.loadReceived bytes).tick

/-- FRAME.REQ (R47, R94 step 2): the host takes the twelve bytes for its transport. -/
def execFrameReq (tid : U16) (uid : U8) (addr qty : U16) (s : State) : Host.Outcome State Fault Refusal :=
  .next (s.handOver (.frame (requestBytes tid uid addr qty))).tick

/-- FRAME.RSP (R48): a normal response arrives. -/
def execFrameRsp (mbap : Mbap) (values : List S16) (trailing : List Byte) (s : State) :
    Host.Outcome State Fault Refusal :=
  .next (loadrx (responseBytes mbap values trailing) s)

/-- FRAME.EXC (R49): an exception response arrives. -/
def execFrameExc (mbap : Mbap) (functionLow : BitVec 7) (code : U8) (trailing : List Byte) (s : State) :
    Host.Outcome State Fault Refusal :=
  .next (loadrx (exceptionBytes mbap functionLow code trailing) s)

/-- FRAME.ILLEGAL (R53): bytes arrive that hold no frame. -/
def execFrameIllegal (bytes : List Byte) (s : State) : Host.Outcome State Fault Refusal :=
  .next (loadrx bytes s)

/-- FRAME.NONE (R53, R110): no reply, or a transport failure: `LOADRX <none>`. -/
def execFrameNone (s : State) : Host.Outcome State Fault Refusal :=
  .next (loadrx [] s)

end Sys2Proof.Machine
end

