-- ==== Sys2Proof/Machine/Dispatch.lean ====
section
/-! DEFINITION. One arm per instruction. -/

namespace Sys2Proof.Machine

def exec (i : Instr) (s : State) : Host.Outcome State Fault Refusal :=
  match i with
  | .encode tid uid addr qty => Sys2Proof.Machine.execEncode tid uid addr qty s
  | .decode => Sys2Proof.Machine.execDecode s
  | .convert => Sys2Proof.Machine.execConvert s
  | .pipe => Sys2Proof.Machine.execPipe s
  | .cmdReserved word => Sys2Proof.Machine.execCmdReserved word s
  | .frameReq tid uid addr qty => Sys2Proof.Machine.execFrameReq tid uid addr qty s
  | .frameRsp mbap values trailing => Sys2Proof.Machine.execFrameRsp mbap values trailing s
  | .frameExc mbap functionLow code trailing => Sys2Proof.Machine.execFrameExc mbap functionLow code trailing s
  | .frameIllegal bytes => Sys2Proof.Machine.execFrameIllegal bytes s
  | .frameNone => Sys2Proof.Machine.execFrameNone s

end Sys2Proof.Machine
end

