-- ==== Sys2Proof/Machine/HostActions.lean ====
section
/-! DEFINITION. What the host does to the block (42_pipeline.md section 3, 70_reset_and_hazards.md): RESET, reads, and the two
pseudo-operations of 30_encoding.md R61; and the performing of one host action, by the decoder and `exec` where the action
carries an instruction. -/

namespace Sys2Proof.Machine

/-- RESET (R116, R117): every element at its reset value. What R117 leaves unspecified gets free values of this occasion (two
resets need not leave the same value); TXB and RXB list nothing. The model's own fields are the host's and stay. -/
def resetBlock (s : State) : State :=
  State.tick
    { State.reset with
      rv := freeRegisters s.fresh
      vel := freeVelocities s.fresh
      tid := Config.freeWord s.fresh 127
      uid := Config.freeByte s.fresh 0
      addr := Config.freeWord s.fresh 128
      qty := Config.freeWord s.fresh 129
      fresh := s.fresh
      pending := s.pending
      hostView := s.hostView }

/-- A byte of a buffer as the host reads it; an offset the buffer does not have is a fault. -/
def readByte (buf : Buffer) (offset : Nat) (s : State) : Except Fault HostValue :=
  if offset < buf.size then .ok (.byte (memRead1 buf offset s)) else .error (.noSuchByte buf offset)

/-- The value of an element as the host reads it (R93). An entry RV[i] with i ≥ RVCNT, VEL while VELVALID = 0 and a byte of RXB
at or above RXLEN read as unspecified values (R126). -/
def readElement (e : Element) (s : State) : Except Fault HostValue :=
  match e with
  | .rv i => .ok (.word (if i.val < s.rvcnt.toNat then s.rv[i.val] else Config.freeWord s.fresh i.val))
  | .rvcnt => .ok (.count s.rvcnt.toNat)
  | .vel k => .ok (.float (if s.velvalid then s.vel[k.val] else Config.freeFloat s.fresh k.val))
  | .velvalid => .ok (.flag s.velvalid)
  | .tid => .ok (.word s.tid)
  | .uid => .ok (.byte s.uid)
  | .addr => .ok (.word s.addr)
  | .qty => .ok (.word s.qty)
  | .inflight => .ok (.flag s.inflight)
  | .txb offset => readByte .txb offset s
  | .rxb offset =>
    if offset < s.rxlen.toNat ∨ Buffer.rxb.size ≤ offset then readByte .rxb offset s
    else .ok (.byte (Config.freeByte s.fresh offset))
  | .rxlen => .ok (.count s.rxlen.toNat)
  | .status => .ok (.word s.readStatus)

/-- A host read (R93): no element changes (R39). -/
def readAction (e : Element) (s : State) : Host.Outcome State Fault Refusal :=
  match readElement e s with
  | .ok v => .next (s.handOver v).tick
  | .error r => .fault r

/-- The host takes TXB's twelve bytes although they are no request frame (before the first ENCODE, U1): a plain read. -/
def sendUnspecified (s : State) : State := (s.handOver (.frame (txBytes s))).tick

/-- The code a host action carries to the block, if it carries one. -/
def actionCode (a : HostAction) (s : State) : Option Code :=
  match a with
  | .reset => none
  | .command word => some (.command word)
  | .loadrx bytes => some (.received bytes)
  | .send => some (.request (txBytes s))
  | .read _ => none

/-- Runs what a code decodes to. Only a sent byte string can fail to decode. -/
def runCode (c : Code) (s : State) : Host.Outcome State Fault Refusal :=
  match decodeCode c with
  | .ok i => exec i s
  | .error _ => .next (sendUnspecified s)

/-- Performs one host action. -/
def perform (a : HostAction) (s : State) : Host.Outcome State Fault Refusal :=
  match a with
  | .reset => .next (resetBlock s)
  | .command word => runCode (.command word) s
  | .loadrx bytes => runCode (.received bytes) s
  | .send => runCode (.request (txBytes s)) s
  | .read e => readAction e s

/-- The command word of an operation, to present it (R59); the frames are not presented. -/
def commandOf (i : Instr) : List HostAction :=
  match encode i with
  | .command word => [.command word]
  | .received bytes => [.loadrx bytes]
  | .request _ => [.send]

/-- `READVEL tid` (R61): the deployment's fixed parameters (R9). -/
def readVel (tid : U16) : List HostAction := commandOf (.encode tid 1#8 0#16 12#16)

/-- `CYCLE tid, uid, addr, qty, <bytes>` (R61). -/
def cycle (tid : U16) (uid : U8) (addr qty : U16) (bytes : List Byte) : List HostAction :=
  commandOf (.encode tid uid addr qty) ++ [.loadrx bytes] ++ commandOf .pipe

/-- The code of a table word as a host action, and the state with what that action needs: a request frame is sent out of TXB,
so it is placed there (notes/assumptions/11.md). -/
def placeCode (c : Code) (s : State) : State :=
  match c with
  | .command word => s.setPending (.command word :: s.pending)
  | .received bytes => s.setPending (.loadrx bytes :: s.pending)
  | .request bytes => { s with txb := Memory.ofBytes 0 bytes, pending := .send :: s.pending }

end Sys2Proof.Machine
end

