-- ==== Sys2Proof/Machine/Step.lean ====
section
/-! DEFINITION. One step of a run (70_reset_and_hazards.md R129): the next host action is taken from the script and performed
on the block, as one indivisible step (R6, R42). With no action left the block is idle and holds its state (R115). -/

namespace Sys2Proof.Machine

def step (s : State) : Host.Outcome State Fault Refusal :=
  match s.pending with
  | [] => .next s
  | action :: rest => perform action (s.setPending rest)

/-- The state with the instruction of a table word as the host's next action. -/
def State.withFetchWord (s : State) (nbits w : Nat) : State := placeCode (tableCode nbits w) s

end Sys2Proof.Machine
end

