-- ==== Sys2Proof/Safety.lean ====
section
/-! DEFINITION. The terms claims are made in: the legal states of MBCV, agreement of two states on elements, and the classes
of a received sequence as the state shows them. -/

namespace Sys2Proof.Machine

/-- STATUS is legal (R27): bits 7:3 are 0, KIND is at most 5, EXC is 0 unless KIND = 4. -/
abbrev State.StatusLegal (s : State) : Prop :=
  s.status.extractLsb' 3 5 = 0#5 ∧ s.kind.toNat ≤ 5 ∧ (s.kind ≠ 4#3 → s.exc = 0#8)

/-- RXLEN is legal (R26) and RXB lists exactly the bytes below it, in canonical form. -/
abbrev State.ReceiveLegal (s : State) : Prop :=
  s.rxlen.toNat ≤ 263 ∧ Memory.wf s.rxb ∧
    ∀ offset, (Memory.read s.rxb offset).isSome = decide (offset < s.rxlen.toNat)

/-- TXB is in canonical form within its twelve bytes. -/
abbrev State.TransmitLegal (s : State) : Prop := Memory.wf s.txb ∧ Memory.below s.txb 12

/-- While a request is in flight (R23), TXB holds its frame (R47) for the latched operands (R22). -/
abbrev State.RequestHeld (s : State) : Prop :=
  s.inflight = true → ∀ offset, offset < 12 →
    Memory.read s.txb offset = (requestBytes s.tid s.uid s.addr s.qty)[offset]?

/-- While VELVALID = 1 every VEL[k] is +0 or a normal number (R84). -/
abbrev State.VelocitiesLegal (s : State) : Prop :=
  s.velvalid = true → ∀ k : Fin 6, Float64.zeroOrNormal s.vel[k.val] = true

/-- The legal states of MBCV. -/
structure State.Legal (s : State) : Prop where
  status : s.StatusLegal
  receive : s.ReceiveLegal
  transmit : s.TransmitLegal
  request : s.RequestHeld
  velocities : s.VelocitiesLegal

/-- RXB and RXLEN are the same, as the two states read them. -/
abbrev SameReceive (s t : State) : Prop := t.rxlen = s.rxlen ∧ t.rxb = s.rxb

/-- TXB and the four latched operands are the same. -/
abbrev SameRequest (s t : State) : Prop :=
  t.txb = s.txb ∧ t.tid = s.tid ∧ t.uid = s.uid ∧ t.addr = s.addr ∧ t.qty = s.qty

/-- RV and RVCNT are the same. -/
abbrev SameRegisters (s t : State) : Prop := t.rv = s.rv ∧ t.rvcnt = s.rvcnt

/-- VEL and VELVALID are the same. -/
abbrev SameVelocities (s t : State) : Prop := t.vel = s.vel ∧ t.velvalid = s.velvalid

/-- The thirteen elements are the same (R17). -/
abbrev SameBlock (s t : State) : Prop :=
  SameRegisters s t ∧ SameVelocities s t ∧ SameRequest s t ∧ t.inflight = s.inflight ∧ SameReceive s t ∧
    t.status = s.status

/-- The two states agree on everything a rule specifies (93_implementation_defined.md U1 to U5): the registers below RVCNT, VEL
while valid, the request and its frame while in flight, the received bytes below RXLEN (which are listed), and the counts,
flags and STATUS themselves. -/
structure AgreeWhereSpecified (s t : State) : Prop where
  registers : t.rvcnt = s.rvcnt ∧ ∀ i (hi : i < 127), i < s.rvcnt.toNat → t.rv[i] = s.rv[i]
  velocities : t.velvalid = s.velvalid ∧ (s.velvalid = true → t.vel = s.vel)
  request : t.inflight = s.inflight ∧
    (s.inflight = true → t.tid = s.tid ∧ t.uid = s.uid ∧ t.addr = s.addr ∧ t.qty = s.qty ∧
      ∀ offset, offset < 12 → Memory.read t.txb offset = Memory.read s.txb offset)
  receive : t.rxlen = s.rxlen ∧
    ∀ offset, offset < s.rxlen.toNat → ∃ b, Memory.read s.rxb offset = some b ∧ Memory.read t.rxb offset = some b
  status : t.status = s.status

/-- The host's side of the model is the same: its script and what it has been handed. -/
abbrev SameHost (s t : State) : Prop := t.pending = s.pending ∧ t.hostView = s.hostView

/-- Everything but the two buffers is the same: eleven elements, and the model's own fields. -/
abbrev SameOutsideBuffers (s t : State) : Prop :=
  SameRegisters s t ∧ SameVelocities s t ∧ t.tid = s.tid ∧ t.uid = s.uid ∧ t.addr = s.addr ∧ t.qty = s.qty ∧
    t.inflight = s.inflight ∧ t.rxlen = s.rxlen ∧ t.status = s.status ∧ SameHost s t ∧ t.fresh = s.fresh

/-- The elements whose reset value the spec gives hold it (R117). -/
abbrev State.AtReset (s : State) : Prop :=
  s.rvcnt = 0#7 ∧ s.velvalid = false ∧ s.inflight = false ∧ s.rxlen = 0#9 ∧ s.status = 0x0000#16

/-- The signed value of two bytes, high byte first, in R50's second form: 65536 less from 0x80 on. -/
def wireInt (hi lo : Byte) : Int :=
  if hi.toNat < 0x80 then (hi.toNat * 256 + lo.toNat : Int) else (hi.toNat * 256 + lo.toNat : Int) - 65536

/-- The exact value of ± num / den, times den, in units of 2^-1074. -/
def exactUnits (negative : Bool) (num : Nat) : Int :=
  if negative then -((num * Float64.unitsPerOne : Nat) : Int) else ((num * Float64.unitsPerOne : Nat) : Int)

/-- The next host action is this one. -/
abbrev State.NextIs (s : State) (a : HostAction) : Prop := s.pending.head? = some a

/-- The next host action presents a command word that decodes to this instruction. -/
abbrev State.NextCommands (s : State) (i : Instr) : Prop :=
  ∃ word, s.NextIs (.command word) ∧ decodeCommand word = i

/-- `t` follows `s` by completed steps, none of which is an ENCODE. -/
inductive StepsWithoutEncode : State → State → Prop where
  | here (s : State) : StepsWithoutEncode s s
  | next (s t u : State) : (∀ tid uid addr qty, ¬s.NextCommands (.encode tid uid addr qty)) → step s = .next t →
      StepsWithoutEncode t u → StepsWithoutEncode s u

/-- STATUS records this failure (R98, R105). -/
abbrev State.Reports (s : State) (k : Failure) : Prop := s.kind = k.kind ∧ s.exc = k.exc

/-- STATUS records success (R98). -/
abbrev State.ReportsOk (s : State) : Prop := s.kind = 1#3 ∧ s.exc = 0#8

end Sys2Proof.Machine
end

