-- ==== Sys2Proof/Certificates/Slice0/Obligations.lean ====
section
/-! DEFINITION. The statements about MBCV, for the provers. Each docstring says which sentence of spec/ it formalises.
`Memory.read m a` is the byte a buffer lists at offset a, if it lists one (notes/assumptions/3.md). `fresh`, `pending` and
`hostView` are the model's own fields; a statement that speaks of `pending`, of the next host action or of a step rests on the
script of notes/assumptions/4.md. -/

open Sys2Proof Sys2Proof.Machine

/-! ## Encodings -/

/-- 30_encoding.md sections 2, 4 and 6: decoding the encoding of any well-formed instruction gives it back, with every operand
at every value. -/
def Obligations.DecodeOfEncode : Prop :=
  ∀ i : Instr, i.wf = true → decodeCode (encode i) = .ok i

/-- The other direction: what decodes is well formed, and its encoding is the code it was read from. No bit of a command
word, of a received sequence of any length or of a sent frame is dropped, and no code has two readings. -/
def Obligations.EncodeOfDecode : Prop :=
  ∀ (c : Code) (i : Instr), decodeCode c = .ok i → i.wf = true ∧ encode i = c

/-- Words and frames written out from R47, R48, R49 and R59, and from 95_test_vectors.md E-4, D-25, D-5 and 2.5. -/
def Obligations.WordsDecodeAsWritten : Prop :=
  decodeCommand 0x0003006B12341101#64 = .encode 0x1234#16 0x11#8 0x006B#16 3#16 ∧
    decodeCommand 0x0000000000000002#64 = .decode ∧
    decodeCommand 0x0000000000000003#64 = .convert ∧
    decodeCommand 0x0000000000000004#64 = .pipe ∧
    decodeCommand 0x0000000000000102#64 = .cmdReserved 0x0000000000000102#64 ∧
    decodeRequest [0x12#8, 0x34#8, 0x00#8, 0x00#8, 0x00#8, 0x06#8, 0x11#8, 0x03#8, 0x00#8, 0x6B#8, 0x00#8, 0x03#8] =
      .ok (.frameReq 0x1234#16 0x11#8 0x006B#16 3#16) ∧
    decodeReceived [0x00#8, 0x01#8, 0x00#8, 0x00#8, 0x00#8, 0x07#8, 0x01#8, 0x03#8, 0x04#8, 0xFE#8, 0x0C#8, 0x00#8, 0x02#8] =
      .frameRsp ⟨1#16, 0#16, 7#16, 1#8⟩ [0xFE0C#16, 2#16] [] ∧
    decodeReceived [0x00#8, 0x01#8, 0x00#8, 0x00#8, 0x00#8, 0x03#8, 0x01#8, 0x83#8, 0x02#8] =
      .frameExc ⟨1#16, 0#16, 3#16, 1#8⟩ 3#7 2#8 []

/-- R59: the decode table of the command word, by its bit fields. OP is bits 2:0; bits 7:3 must be 0; uid 15:8, tid 31:16,
addr 47:32, qty 63:48; for OP 2, 3 and 4 bits 63:8 must be 0. Every other word is CMD.RESERVED (R60). -/
def Obligations.CommandWordTable : Prop :=
  ∀ word : CommandWord,
    decodeCommand word =
      if word.toNat % 8 = 1 ∧ word.toNat / 8 % 32 = 0 then
        .encode (BitVec.ofNat 16 (word.toNat / 2 ^ 16)) (BitVec.ofNat 8 (word.toNat / 2 ^ 8))
          (BitVec.ofNat 16 (word.toNat / 2 ^ 32)) (BitVec.ofNat 16 (word.toNat / 2 ^ 48))
      else if word.toNat = 2 then .decode
      else if word.toNat = 3 then .convert
      else if word.toNat = 4 then .pipe
      else .cmdReserved word

/-! ## Buffers -/

/-- 20_memory.md section 2: `MemRead` of two bytes is b[off] * 256 + b[off+1]; `MemWrite` writes exactly the bytes named, most
significant first: every other byte of the buffer, the other buffer and every other element is as before. Stated for both
buffers and both widths. -/
def Obligations.BufferPrimitives : Prop :=
  ∀ (buf : Buffer) (offset : Nat) (s : State),
    memRead1 buf offset s = bufferByte buf offset s ∧
    (memRead2 buf offset s).toNat = (bufferByte buf offset s).toNat * 256 + (bufferByte buf (offset + 1) s).toNat ∧
    (∀ (v : U8) (other : Nat),
      Memory.read ((memWrite1 buf offset v s).buffer buf) other =
        if other = offset then some v else Memory.read (s.buffer buf) other) ∧
    (∀ (v : U16) (other : Nat),
      Memory.read ((memWrite2 buf offset v s).buffer buf) other =
        if other = offset then some (BitVec.ofNat 8 (v.toNat / 256))
        else if other = offset + 1 then some (BitVec.ofNat 8 v.toNat)
        else Memory.read (s.buffer buf) other) ∧
    (∀ (v : U8) (buf' : Buffer), buf' ≠ buf → (memWrite1 buf offset v s).buffer buf' = s.buffer buf') ∧
    (∀ (v : U16) (buf' : Buffer), buf' ≠ buf → (memWrite2 buf offset v s).buffer buf' = s.buffer buf') ∧
    (∀ v : U8, SameOutsideBuffers s (memWrite1 buf offset v s)) ∧
    (∀ v : U16, SameOutsideBuffers s (memWrite2 buf offset v s))

/-! ## ENCODE -/

/-- R62, R63: ENCODE completes on every operand value and in every state: the seven fields of TXB, the latched operands,
INFLIGHT and STATUS. "Nothing else": every byte of RXB, every byte of TXB outside its twelve, and every other element is as
before. -/
def Obligations.EncodeResult : Prop :=
  ∀ (tid : U16) (uid : U8) (addr qty : U16) (s : State), ∃ t, exec (.encode tid uid addr qty) s = .next t ∧
    memRead2 .txb 0 t = tid ∧ memRead2 .txb 2 t = 0x0000#16 ∧ memRead2 .txb 4 t = 0x0006#16 ∧
    memRead1 .txb 6 t = uid ∧ memRead1 .txb 7 t = 0x03#8 ∧ memRead2 .txb 8 t = addr ∧ memRead2 .txb 10 t = qty ∧
    (∀ offset, offset < 12 → (Memory.read t.txb offset).isSome = true) ∧
    t.tid = tid ∧ t.uid = uid ∧ t.addr = addr ∧ t.qty = qty ∧ t.inflight = true ∧ t.ReportsOk ∧ t.status = 0x0001#16 ∧
    (∀ offset, 12 ≤ offset → Memory.read t.txb offset = Memory.read s.txb offset) ∧
    (∀ offset, Memory.read t.rxb offset = Memory.read s.rxb offset) ∧
    t.rxlen = s.rxlen ∧ SameRegisters s t ∧ SameVelocities s t ∧ SameHost s t

/-- 40_framecodec.md section 3: the map from the operands to the twelve bytes of TXB is injective. -/
def Obligations.RequestOperandsReadBack : Prop :=
  ∀ (tid tid' : U16) (uid uid' : U8) (addr addr' qty qty' : U16) (s s' t t' : State),
    exec (.encode tid uid addr qty) s = .next t → exec (.encode tid' uid' addr' qty') s' = .next t' →
    txBytes t = txBytes t' → tid = tid' ∧ uid = uid' ∧ addr = addr' ∧ qty = qty'

/-! ## DECODE -/

/-- R53, R64: DECODE completes in every state, with the outcome the tests give in their order, RVCNT, STATUS, and the
registers of a well-formed response (their sixteen bits; `DecodedValuesSigned` says their values). "Never written": every byte
of RXB and TXB and every other element is as before, on success and on failure. -/
def Obligations.DecodeResult : Prop :=
  ∀ s : State, ∃ t, exec .decode s = .next t ∧
    (let len := s.rxlen.toNat
     let fc := bufferByte .rxb 7 s
     let bc := bufferByte .rxb 8 s
     if len = 0 then t.Reports .noResponse ∧ t.rvcnt = 0#7
     else if len ≤ 8 then t.Reports .malformedResponse ∧ t.rvcnt = 0#7
     else if 0x80 ≤ fc.toNat then t.Reports (.protocolException bc) ∧ t.rvcnt = 0#7
     else if fc ≠ 0x03#8 then t.Reports .malformedResponse ∧ t.rvcnt = 0#7
     else if bc.toNat % 2 = 1 then t.Reports .malformedResponse ∧ t.rvcnt = 0#7
     else if len < 9 + bc.toNat then t.Reports .malformedResponse ∧ t.rvcnt = 0#7
     else t.ReportsOk ∧ t.rvcnt.toNat = bc.toNat / 2 ∧
       ∀ i (hi : i < 127), i < bc.toNat / 2 →
         t.rv[i].toNat = (bufferByte .rxb (9 + 2 * i) s).toNat * 256 + (bufferByte .rxb (10 + 2 * i) s).toNat) ∧
    (∀ offset, Memory.read t.rxb offset = Memory.read s.rxb offset) ∧
    (∀ offset, Memory.read t.txb offset = Memory.read s.txb offset) ∧
    t.rxlen = s.rxlen ∧ t.tid = s.tid ∧ t.uid = s.uid ∧ t.addr = s.addr ∧ t.qty = s.qty ∧ t.inflight = s.inflight ∧
    SameVelocities s t ∧ SameHost s t

/-- 40_framecodec.md section 4 (two's complement is general knowledge the spec marks, notes/assumptions/7.md): after a DECODE
that ends OK, each valid register is the signed big-endian integer of its two bytes. -/
def Obligations.DecodedValuesSigned : Prop :=
  ∀ s t : State, exec .decode s = .next t → t.kind = 1#3 →
    ∀ i (hi : i < 127), i < t.rvcnt.toNat →
      t.rv[i].toInt = wireInt (bufferByte .rxb (9 + 2 * i) s) (bufferByte .rxb (10 + 2 * i) s)

/-- R16, R55, R66: two states with the same RXLEN and the same received bytes from offset 7 up to RXLEN end DECODE with the
same STATUS, RVCNT and valid registers, whatever else differs: the MBAP bytes, bytes at or above RXLEN, QTY and every other
element. -/
def Obligations.DecodeReadsFromOffsetSeven : Prop :=
  ∀ s s' t t' : State, s'.rxlen = s.rxlen →
    (∀ offset, 7 ≤ offset → offset < s.rxlen.toNat → bufferByte .rxb offset s' = bufferByte .rxb offset s) →
    exec .decode s = .next t → exec .decode s' = .next t' →
    t'.status = t.status ∧ t'.rvcnt = t.rvcnt ∧ ∀ i (hi : i < 127), i < t.rvcnt.toNat → t'.rv[i] = t.rv[i]

/-- 40_framecodec.md section 3: a response built from chosen values, with any header and any bytes after the frame, once
arrived (FRAME.RSP as an arrival is the model's choice, notes/assumptions/6.md), decodes to exactly those values in order. -/
def Obligations.ResponseRoundTrip : Prop :=
  ∀ (m : Mbap) (values : List S16) (trailing : List Byte) (s : State), values.length ≤ 127 →
    ∃ a t, exec (.frameRsp m values trailing) s = .next a ∧ exec .decode a = .next t ∧
      t.ReportsOk ∧ t.rvcnt.toNat = values.length ∧
      ∀ i (hi : i < values.length) (hi' : i < 127), t.rv[i] = values[i]

/-- 30_encoding.md section 4 with 42_pipeline.md section 3: for a received sequence of ANY length (LOADRX keeps its first 263
bytes), LOADRX and then DECODE end with the outcome of the sequence's class. The class is read off the whole sequence, so
cutting it changes no outcome. That a class's row stands for LOADRX is the model's choice (notes/assumptions/6.md). -/
def Obligations.ReceivedClassDecidesOutcome : Prop :=
  ∀ (bytes : List Byte) (s : State), ∃ a t, exec (decodeReceived bytes) s = .next a ∧ exec .decode a = .next t ∧
    match decodeReceived bytes with
    | .frameNone => t.Reports .noResponse
    | .frameIllegal _ => t.Reports .malformedResponse
    | .frameExc _ _ code _ => t.Reports (.protocolException code)
    | .frameRsp _ values _ => t.ReportsOk ∧ t.rvcnt.toNat = values.length ∧
        ∀ i (hi : i < values.length) (hi' : i < 127), t.rv[i] = values[i]
    | _ => False

/-! ## CONVERT and its numerics -/

/-- R73, R76: CONVERT completes in every state: with fewer than twelve values it reports InvalidRegisterCount and clears
VELVALID; otherwise each lane is the pair conversion of its two registers. "Never written": RV, RVCNT and every other element
is as before. -/
def Obligations.ConvertResult : Prop :=
  ∀ s : State, ∃ t, exec .convert s = .next t ∧
    (if s.rvcnt.toNat < 12 then t.Reports .invalidRegisterCount ∧ t.velvalid = false
    else t.ReportsOk ∧ t.velvalid = true ∧
      ∀ k (hk : k < 6), t.vel[k] = pairconv (s.rv[2 * k]'(by omega)) (s.rv[2 * k + 1]'(by omega))) ∧
    (∀ offset, Memory.read t.rxb offset = Memory.read s.rxb offset) ∧
    (∀ offset, Memory.read t.txb offset = Memory.read s.txb offset) ∧
    t.rxlen = s.rxlen ∧ t.tid = s.tid ∧ t.uid = s.uid ∧ t.addr = s.addr ∧ t.qty = s.qty ∧ t.inflight = s.inflight ∧
    SameRegisters s t ∧ SameHost s t

/-- 41_velocitydecoder.md section 1: lane k reads only RV[2k] and RV[2k+1]. -/
def Obligations.LanesIndependent : Prop :=
  ∀ (s s' t t' : State) (k : Nat) (hk : k < 6), 12 ≤ s.rvcnt.toNat → 12 ≤ s'.rvcnt.toNat →
    s'.rv[2 * k]'(by omega) = s.rv[2 * k]'(by omega) → s'.rv[2 * k + 1]'(by omega) = s.rv[2 * k + 1]'(by omega) →
    exec .convert s = .next t → exec .convert s' = .next t' → t'.vel[k] = t.vel[k]

/-- R88: the source's stated values. -/
def Obligations.StatedPairValues : Prop :=
  pairconv (BitVec.ofInt 16 0) (BitVec.ofInt 16 (-500)) = 0xBFE0000000000000#64 ∧
    pairconv (BitVec.ofInt 16 2) (BitVec.ofInt 16 500) = 0x4004000000000000#64 ∧
    pairconv (BitVec.ofInt 16 (-2)) (BitVec.ofInt 16 500) = 0xBFF8000000000000#64 ∧
    pairconv (BitVec.ofInt 16 0) (BitVec.ofInt 16 0) = 0x0000000000000000#64

/-- 41_velocitydecoder.md section 2 (general knowledge the spec marks, notes/assumptions/7.md): the conversion of a register
is exact, and the scale is 1000. -/
def Obligations.ConversionExact : Prop :=
  (∀ v : S16, Float64.finite (Float64.cvt v) = true ∧
    Float64.units (Float64.cvt v) = v.toInt * (Float64.unitsPerOne : Int)) ∧
  Float64.units Float64.scale = 1000 * (Float64.unitsPerOne : Int)

/-- 41_velocitydecoder.md section 2 (general knowledge the spec marks, notes/assumptions/7.md): `RN` of ± num / den, within the
finite range, is finite and no finite float is nearer; when another one is equally near, the fraction of the result is even. -/
def Obligations.RoundIsNearestEven : Prop :=
  ∀ (negative : Bool) (num den : Nat), 0 < den → num < den * 2 ^ 1023 →
    Float64.finite (Float64.round negative num den) = true ∧
    ∀ y : F64, Float64.finite y = true →
      (Float64.units (Float64.round negative num den) * den - exactUnits negative num).natAbs ≤
          (Float64.units y * den - exactUnits negative num).natAbs ∧
      ((Float64.units y * den - exactUnits negative num).natAbs =
          (Float64.units (Float64.round negative num den) * den - exactUnits negative num).natAbs →
        Float64.units y ≠ Float64.units (Float64.round negative num den) →
        Float64.fraction (Float64.round negative num den) % 2 = 0)

/-- 41_velocitydecoder.md section 2 (the rounding rule is general knowledge the spec marks, notes/assumptions/7.md): the quotient
of two finite floats is the nearest float to the exact quotient (both sides multiplied by the divisor). -/
def Obligations.DivisionIsNearest : Prop :=
  ∀ a b y : F64, Float64.finite a = true → Float64.finite b = true → Float64.finite y = true →
    Float64.magnitude b ≠ 0 → Float64.magnitude a < Float64.magnitude b * 2 ^ 1023 →
    (Float64.units (Float64.div a b) * Float64.units b - Float64.units a * (Float64.unitsPerOne : Int)).natAbs ≤
      (Float64.units y * Float64.units b - Float64.units a * (Float64.unitsPerOne : Int)).natAbs

/-- 41_velocitydecoder.md section 2 (the rounding rule is general knowledge the spec marks, notes/assumptions/7.md): the sum of
two finite floats is the nearest float to the exact sum, and an exact zero sum of operands that are not both of negative sign
is +0. The spec gives +0 for two non-zero operands that cancel (notes/assumptions/7.md); for two zeros, such as (+0) + (-0), it
is IEEE 754's rule, taken from outside the spec (notes/assumptions/10.md). -/
def Obligations.AdditionIsNearest : Prop :=
  ∀ a b : F64, Float64.finite a = true → Float64.finite b = true →
    (Float64.units a + Float64.units b).natAbs < Float64.unitsPerOne * 2 ^ 1023 →
    (∀ y : F64, Float64.finite y = true →
      (Float64.units (Float64.add a b) - (Float64.units a + Float64.units b)).natAbs ≤
        (Float64.units y - (Float64.units a + Float64.units b)).natAbs) ∧
    (Float64.units a + Float64.units b = 0 → (Float64.sign a && Float64.sign b) = false → Float64.add a b = 0#64)

/-- 41_velocitydecoder.md section 2 (the arithmetic is notes/assumptions/7.md): the special case does not change the
value: both forms give the same bits for all 2^32 pairs. -/
def Obligations.SpecialCaseChangesNothing : Prop :=
  ∀ integer fractional : S16,
    pairconv integer fractional =
      Float64.add (Float64.cvt integer) (Float64.div (Float64.cvt fractional) Float64.scale)

/-- 41_velocitydecoder.md section 2 (the arithmetic is notes/assumptions/7.md): no NaN, infinity, subnormal or -0 is
produced, for all 2^32 pairs. -/
def Obligations.PairconvZeroOrNormal : Prop :=
  ∀ integer fractional : S16, Float64.zeroOrNormal (pairconv integer fractional) = true

/-- 41_velocitydecoder.md section 2 (the arithmetic is notes/assumptions/7.md): the result is zero, then +0, exactly
when the two parts cancel: F = -1000 × I. -/
def Obligations.PairconvZeroWhenCancelling : Prop :=
  ∀ integer fractional : S16,
    pairconv integer fractional = 0#64 ↔ fractional.toInt = -1000 * integer.toInt

/-- 41_velocitydecoder.md section 2 (the arithmetic is notes/assumptions/7.md): the greatest result is
pairconv(32767, 32767) = 40E003F88B439581, the least pairconv(-32768, -32768) = C0E004189374BC6A. -/
def Obligations.PairconvRange : Prop :=
  pairconv (BitVec.ofInt 16 32767) (BitVec.ofInt 16 32767) = 0x40E003F88B439581#64 ∧
  pairconv (BitVec.ofInt 16 (-32768)) (BitVec.ofInt 16 (-32768)) = 0xC0E004189374BC6A#64 ∧
  ∀ integer fractional : S16,
    Float64.units 0xC0E004189374BC6A#64 ≤ Float64.units (pairconv integer fractional) ∧
    Float64.units (pairconv integer fractional) ≤ Float64.units 0x40E003F88B439581#64

/-! ## PIPE -/

/-- R89, R90: with a request in flight PIPE completes: it clears INFLIGHT, ends as DECODE would when that fails, then checks
the count against QTY, then converts. The decode's outcome `d` is DECODE's own on the same state. With no request in flight it
is refused. "Never written": the buffers, RXLEN and the four operands are as before. -/
def Obligations.PipeResult : Prop :=
  ∀ s : State, (s.inflight = false → exec .pipe s = .refused .noRequestInFlight) ∧
   (s.inflight = true → ∃ d t, exec .decode s = .next d ∧ exec .pipe s = .next t ∧ t.inflight = false ∧
    (if d.kind ≠ 1#3 then t.status = d.status ∧ t.rvcnt = 0#7 ∧ t.velvalid = false
    else t.rvcnt = d.rvcnt ∧ (∀ i (hi : i < 127), i < d.rvcnt.toNat → t.rv[i] = d.rv[i]) ∧
      if d.rvcnt.toNat ≠ s.qty.toNat then t.Reports .malformedResponse ∧ t.velvalid = false
      else if d.rvcnt.toNat < 12 then t.Reports .invalidRegisterCount ∧ t.velvalid = false
      else t.ReportsOk ∧ t.velvalid = true ∧
        ∀ k (hk : k < 6), t.vel[k] = pairconv (d.rv[2 * k]'(by omega)) (d.rv[2 * k + 1]'(by omega))) ∧
    (∀ offset, Memory.read t.rxb offset = Memory.read s.rxb offset) ∧
    (∀ offset, Memory.read t.txb offset = Memory.read s.txb offset) ∧
    t.rxlen = s.rxlen ∧ t.tid = s.tid ∧ t.uid = s.uid ∧ t.addr = s.addr ∧ t.qty = s.qty ∧ SameHost s t)

/-- 42_pipeline.md section 1: the two registers of every lane and STATUS after a successful PIPE on an arrived response of as
many values as were requested, from twelve on: each velocity is the pair conversion of the response's own values (FRAME.RSP as an arrival:
notes/assumptions/6.md). -/
def Obligations.PipeOnMatchingResponse : Prop :=
  ∀ (m : Mbap) (values : List S16) (trailing : List Byte) (s a : State), (h12 : 12 ≤ values.length) →
    values.length ≤ 127 → s.inflight = true → s.qty.toNat = values.length →
    exec (.frameRsp m values trailing) s = .next a →
    ∃ t, exec .pipe a = .next t ∧ t.status = 0x0001#16 ∧ t.velvalid = true ∧ t.inflight = false ∧
      ∀ k (hk : k < 6), t.vel[k] = pairconv (values[2 * k]'(by omega)) (values[2 * k + 1]'(by omega))

/-! ## Refusals -/

/-- R96 with R60: a command is refused in exactly two cases, a reserved word, or PIPE with INFLIGHT = 0. A refusal carries no
state: the machine has no step. -/
def Obligations.CommandRefusedExactly : Prop :=
  ∀ (word : CommandWord) (s : State),
    ((∃ r, perform (.command word) s = .refused r) ↔
      (reservedWord word = true ∨ (word = 0x0000000000000004#64 ∧ s.inflight = false))) ∧
    (reservedWord word = true → perform (.command word) s = .refused (.reservedCommand word)) ∧
    (word = 0x0000000000000004#64 → s.inflight = false → perform (.command word) s = .refused .noRequestInFlight)

/-- R60, R96: CMD.RESERVED is refused in every state. -/
def Obligations.ReservedCommandRefused : Prop :=
  ∀ (word : CommandWord) (s : State), reservedWord word = true →
    exec (decodeCommand word) s = .refused (.reservedCommand word) ∧
    exec (.cmdReserved word) s = .refused (.reservedCommand word)

/-- 70_reset_and_hazards.md section 4 with R96: a step stops only on a refused command, or on a host read of a byte that does
not exist (the model's own fault, notes/assumptions/9.md); every other action completes. -/
def Obligations.StepStopsOnlyWhere : Prop :=
  ∀ s : State, (∃ t, step s = .next t) ∨
    (∃ word, s.NextIs (.command word) ∧ reservedWord word = true ∧ step s = .refused (.reservedCommand word)) ∨
    (s.NextIs (.command 0x0000000000000004#64) ∧ s.inflight = false ∧ step s = .refused .noRequestInFlight) ∨
    (∃ buf offset, buf.size ≤ offset ∧ step s = .fault (.noSuchByte buf offset) ∧
      (s.NextIs (.read (.txb offset)) ∧ buf = .txb ∨ s.NextIs (.read (.rxb offset)) ∧ buf = .rxb))

/-! ## Frames on the wire -/

/-- 42_pipeline.md section 3: the arrival of a received sequence, of each of the classes FRAME.RSP, FRAME.EXC, FRAME.ILLEGAL
and FRAME.NONE (the four whose encoding is a received sequence), completes in every state: RXLEN is its length, at most 263;
RXB holds its bytes below that; nothing else changes, STATUS included. That these rows stand for LOADRX is the model's choice
(notes/assumptions/6.md). -/
def Obligations.ArrivalLoadsReceiveBuffer : Prop :=
  ∀ (i : Instr) (bytes : List Byte) (s : State), encode i = .received bytes →
    ∃ t, exec i s = .next t ∧ t.rxlen.toNat = min bytes.length 263 ∧
      (∀ offset (h : offset < bytes.length), offset < 263 → Memory.read t.rxb offset = some bytes[offset]) ∧
      SameRegisters s t ∧ SameVelocities s t ∧ SameRequest s t ∧ t.inflight = s.inflight ∧ t.status = s.status ∧
      SameHost s t

/-- 42_pipeline.md section 3 step 2 (that FRAME.REQ stands for the host's send is the model's choice, notes/assumptions/6.md):
the request frame's leaving completes in every state; the host is handed the twelve bytes of the frame, and no element
changes. -/
def Obligations.RequestLeavesUnchanged : Prop :=
  ∀ (tid : U16) (uid : U8) (addr qty : U16) (s : State), ∃ t, exec (.frameReq tid uid addr qty) s = .next t ∧
    (∃ bytes, t.hostView = some (.frame bytes) ∧ decodeRequest bytes = .ok (.frameReq tid uid addr qty)) ∧
    SameBlock s t ∧ t.pending = s.pending

/-- 42_pipeline.md section 3 steps 1 and 2 (the host sends the twelve bytes that ENCODE built): a send after an ENCODE runs
FRAME.REQ with ENCODE's operands. That a send decodes TXB and runs FRAME.REQ is the model's choice (notes/assumptions/6.md),
and the script that holds the send is the model's own (notes/assumptions/4.md). -/
def Obligations.SendAfterEncode : Prop :=
  ∀ (tid : U16) (uid : U8) (addr qty : U16) (s t : State) (rest : List HostAction),
    exec (.encode tid uid addr qty) s = .next t → s.pending = .send :: rest →
    step t = exec (.frameReq tid uid addr qty) (t.setPending rest)

/-! ## Repetition -/

/-- 20_memory.md section 4: DECODE repeated on unchanged RXB and RXLEN gives the same STATUS, RVCNT and valid registers (the
received bytes must be there: RXB lists every byte below RXLEN, which `StepKeepsLegal` keeps). -/
def Obligations.DecodeIdempotent : Prop :=
  ∀ s t : State, s.ReceiveLegal → exec .decode s = .next t →
    ∃ u, exec .decode t = .next u ∧ u.status = t.status ∧ u.rvcnt = t.rvcnt ∧
      ∀ i (hi : i < 127), i < t.rvcnt.toNat → u.rv[i] = t.rv[i]

/-- 20_memory.md section 4: CONVERT repeated gives the same STATUS and VELVALID, and the same VEL when valid. -/
def Obligations.ConvertIdempotent : Prop :=
  ∀ s t : State, exec .convert s = .next t →
    ∃ u, exec .convert t = .next u ∧ u.status = t.status ∧ u.velvalid = t.velvalid ∧
      (t.velvalid = true → u.vel = t.vel)

/-- 20_memory.md section 4, for a PIPE issued directly after a PIPE: it is refused. `PipeWithoutEncodeRefused` says so with
other actions between. -/
def Obligations.SecondPipeRefused : Prop :=
  ∀ s t : State, exec .pipe s = .next t → exec .pipe t = .refused .noRequestInFlight

/-! ## RESET, reads, the step -/

/-- R116: RESET, at any time between operations, sets every element whose rule gives a reset value to it, and leaves both
buffers without valid bytes. -/
def Obligations.ResetSetsElements : Prop :=
  ∀ (s : State) (rest : List HostAction), s.pending = .reset :: rest →
    ∃ t, step s = .next t ∧ t.AtReset ∧ t.pending = rest ∧
      (∀ offset, Memory.read t.txb offset = none ∧ Memory.read t.rxb offset = none)

/-- R117's table: the machine's initial state holds the reset values the spec gives. -/
def Obligations.ResetStateHoldsValues : Prop :=
  State.reset.AtReset ∧ State.reset.kind = kindNone ∧ State.reset.exc = 0#8

/-- 70_reset_and_hazards.md section 1: the first commands after RESET: ENCODE works normally, DECODE ends NoResponse, CONVERT
ends InvalidRegisterCount, PIPE is refused. For every state with the reset values. -/
def Obligations.FirstCommandsAfterReset : Prop :=
  ∀ s : State, s.AtReset →
    (∀ tid uid addr qty, ∃ t, exec (.encode tid uid addr qty) s = .next t ∧ t.ReportsOk) ∧
    (∃ t, exec .decode s = .next t ∧ t.Reports .noResponse) ∧
    (∃ t, exec .convert s = .next t ∧ t.Reports .invalidRegisterCount) ∧
    exec .pipe s = .refused .noRequestInFlight

/-- 42_pipeline.md section 3: a host read hands over the element's value where the host may rely on it, and changes no
element. STATUS is read with its hard-wired zeros. -/
def Obligations.HostReadsValidElements : Prop :=
  ∀ (e : Element) (s : State) (rest : List HostAction) (v : HostValue), s.pending = .read e :: rest →
    (match e with
      | .rv i => i.val < s.rvcnt.toNat ∧ v = .word s.rv[i.val]
      | .rvcnt => v = .count s.rvcnt.toNat
      | .vel k => s.velvalid = true ∧ v = .float s.vel[k.val]
      | .velvalid => v = .flag s.velvalid
      | .tid => v = .word s.tid
      | .uid => v = .byte s.uid
      | .addr => v = .word s.addr
      | .qty => v = .word s.qty
      | .inflight => v = .flag s.inflight
      | .txb offset => offset < 12 ∧ ∃ b, Memory.read s.txb offset = some b ∧ v = .byte b
      | .rxb offset => offset < s.rxlen.toNat ∧ offset < 263 ∧ ∃ b, Memory.read s.rxb offset = some b ∧ v = .byte b
      | .rxlen => v = .count s.rxlen.toNat
      | .status => v = .word (s.status &&& 0xFF07#16)) →
    ∃ t, step s = .next t ∧ t.hostView = some v ∧ SameBlock s t ∧ t.pending = rest

/-- 70_reset_and_hazards.md section 5 (host actions are "applied in order") and 30_encoding.md section 6 (a command word selects
an operation): the next host action's code, decoded, is executed on the state without that action. The script is the model's
own (notes/assumptions/4.md); that LOADRX and send carry a frame row's code, which exec runs, is the model's choice
(notes/assumptions/6.md). -/
def Obligations.StepRunsDecoded : Prop :=
  ∀ (s : State) (a : HostAction) (rest : List HostAction) (c : Code) (i : Instr), s.pending = a :: rest →
    actionCode a (s.setPending rest) = some c → decodeCode c = .ok i → step s = exec i (s.setPending rest)

/-- The model's form (notes/assumptions/4.md, DESIGN CHOICE) of 20_memory.md section 6 (one total order of actions) and of
60_exceptions.md section 6 (idle, the block holds its state): the host's actions stand in the state as a script, a step takes
the first one, and with none left the step answers the same state. -/
def Obligations.StepsFollowScript : Prop :=
  ∀ s t : State, step s = .next t → t.pending = s.pending.tail ∧ (s.pending = [] → t = s)

/-! ## The whole machine -/

/-- 10_state.md section 1, the access table: which host actions and operations write an element. -/
def Obligations.ElementWriters : Prop :=
  ∀ s t : State, step s = .next t →
    (¬SameRegisters s t → s.NextCommands .decode ∨ s.NextCommands .pipe ∨ s.NextIs .reset) ∧
    (¬SameVelocities s t → s.NextCommands .convert ∨ s.NextCommands .pipe ∨ s.NextIs .reset) ∧
    (¬SameRequest s t → (∃ tid uid addr qty, s.NextCommands (.encode tid uid addr qty)) ∨ s.NextIs .reset) ∧
    (¬SameReceive s t → (∃ bytes, s.NextIs (.loadrx bytes)) ∨ s.NextIs .reset) ∧
    (t.status ≠ s.status → (∃ word, s.NextIs (.command word)) ∨ s.NextIs .reset)

/-- R23: only ENCODE sets INFLIGHT, and only PIPE and RESET clear it. -/
def Obligations.InflightEvents : Prop :=
  ∀ s t : State, step s = .next t →
    (s.inflight = false → t.inflight = true → ∃ tid uid addr qty, s.NextCommands (.encode tid uid addr qty)) ∧
    (s.inflight = true → t.inflight = false → s.NextCommands .pipe ∨ s.NextIs .reset) ∧
    (∀ tid uid addr qty, s.NextCommands (.encode tid uid addr qty) → t.inflight = true) ∧
    (s.NextCommands .pipe → s.inflight = true ∧ t.inflight = false) ∧
    (s.NextIs .reset → t.inflight = false)

/-- 60_exceptions.md section 1, the outcome table: ENCODE always ends OK, DECODE never with InvalidRegisterCount, CONVERT only
with OK or InvalidRegisterCount, PIPE with InvalidRegisterCount only if QTY < 12. A reserved command has no next state
(42_pipeline.md section 4). The five frame rows leave STATUS as it was, as LOADRX and the host's send do (42_pipeline.md
section 3); that they stand for an arrival and a send is the model's choice (notes/assumptions/6.md). -/
def Obligations.OutcomesPossible : Prop :=
  ∀ (i : Instr) (s t : State), exec i s = .next t →
    match i with
    | .encode _ _ _ _ => t.ReportsOk
    | .decode => t.ReportsOk ∨ t.Reports .noResponse ∨ t.Reports .malformedResponse ∨
        ∃ code, t.Reports (.protocolException code)
    | .convert => t.ReportsOk ∨ t.Reports .invalidRegisterCount
    | .pipe => t.ReportsOk ∨ t.Reports .noResponse ∨ t.Reports .malformedResponse ∨
        (∃ code, t.Reports (.protocolException code)) ∨ (t.Reports .invalidRegisterCount ∧ s.qty.toNat < 12)
    | .cmdReserved _ => False
    | .frameReq _ _ _ _ => t.status = s.status
    | .frameRsp _ _ _ => t.status = s.status
    | .frameExc _ _ _ _ => t.status = s.status
    | .frameIllegal _ => t.status = s.status
    | .frameNone => t.status = s.status

/-- 70_reset_and_hazards.md section 1: no outcome depends on an unspecified value. Any two states with the reset values agree
where the spec specifies anything; and from two states that agree there, any instruction gives next states that agree there,
or the same refusal. For the five frame rows, as an arrival and a send, the instruction is the model's choice
(notes/assumptions/6.md). -/
def Obligations.UnspecifiedNeverMatters : Prop :=
  (∀ s t : State, s.AtReset → t.AtReset → AgreeWhereSpecified s t) ∧
  ∀ (i : Instr) (s s' : State), AgreeWhereSpecified s s' →
    (∃ t t', exec i s = .next t ∧ exec i s' = .next t' ∧ AgreeWhereSpecified t t') ∨
    (∃ r, exec i s = .refused r ∧ exec i s' = .refused r)

/-- Every step keeps the legal states: STATUS's reserved bits and codes (R27), RXLEN within 263 with RXB listing exactly the
bytes below it (R26, R38), the buffers' canonical form, TXB holding the request in flight (R24), VEL +0 or normal while valid
(R84). -/
def Obligations.StepKeepsLegal : Prop :=
  ∀ s t : State, s.Legal → step s = .next t → t.Legal

/-- The reset state is legal. -/
def Obligations.ResetIsLegal : Prop := State.reset.Legal

/-- 20_memory.md section 4 and 70_reset_and_hazards.md section 3: a second PIPE without an ENCODE between is refused, whatever
other actions (DECODE, CONVERT, LOADRX, reads, sends, RESET, idle steps) come between. The script of host actions is the
model's own (notes/assumptions/4.md). -/
def Obligations.PipeWithoutEncodeRefused : Prop :=
  ∀ s t u : State, s.NextCommands .pipe → step s = .next t → StepsWithoutEncode t u → u.NextCommands .pipe →
    step u = .refused .noRequestInFlight
end

