-- ==== Sys2Proof/Laws/Bytes.lean ====
section
/-! SUPPORT. Bytes and words (30_encoding.md R50): splitting and joining a word, byte lists of words. -/

namespace Sys2Proof

/-- `{hi, lo}` is hi * 256 + lo. -/
theorem joinBytes_toNat (hi lo : Byte) : (joinBytes hi lo).toNat = hi.toNat * 256 + lo.toNat := by
  have h : (joinBytes hi lo).toNat = hi.toNat <<< 8 ||| lo.toNat := BitVec.toNat_append hi lo
  rw [h, ← Nat.shiftLeft_add_eq_or_of_lt lo.isLt, Nat.shiftLeft_eq]

theorem highByte_toNat (v : U16) : (highByte v).toNat = v.toNat / 256 := by
  have h := v.isLt
  simp only [highByte, BitVec.extractLsb'_toNat, Nat.shiftRight_eq_div_pow]
  omega

theorem lowByte_toNat (v : U16) : (lowByte v).toNat = v.toNat % 256 := by
  simp [lowByte, BitVec.extractLsb'_toNat]

@[simp] theorem highByte_joinBytes (hi lo : Byte) : highByte (joinBytes hi lo) = hi := by
  apply BitVec.eq_of_toNat_eq
  rw [highByte_toNat, joinBytes_toNat]
  omega

@[simp] theorem lowByte_joinBytes (hi lo : Byte) : lowByte (joinBytes hi lo) = lo := by
  apply BitVec.eq_of_toNat_eq
  rw [lowByte_toNat, joinBytes_toNat]
  omega

@[simp] theorem joinBytes_high_low (v : U16) : joinBytes (highByte v) (lowByte v) = v := by
  apply BitVec.eq_of_toNat_eq
  rw [joinBytes_toNat, highByte_toNat, lowByte_toNat]
  omega

@[simp] theorem bytesOfWords_length (vs : List U16) : (bytesOfWords vs).length = 2 * vs.length := by
  induction vs with
  | nil => rfl
  | cons v vs ih => simp [bytesOfWords, ih]; omega

@[simp] theorem wordsOfBytes_bytesOfWords (vs : List U16) : wordsOfBytes (bytesOfWords vs) = vs := by
  induction vs with
  | nil => rfl
  | cons v vs ih => simp [bytesOfWords, wordsOfBytes, ih]

/-- An even number of bytes is the bytes of its words. -/
theorem bytesOfWords_wordsOfBytes : ∀ bytes : List Byte, bytes.length % 2 = 0 → bytesOfWords (wordsOfBytes bytes) = bytes
  | [], _ => rfl
  | [_], h => by simp at h
  | hi :: lo :: bytes, h => by
    simp only [wordsOfBytes, bytesOfWords, highByte_joinBytes, lowByte_joinBytes]
    rw [bytesOfWords_wordsOfBytes bytes (by simp at h; omega)]

theorem wordsOfBytes_length : ∀ bytes : List Byte, (wordsOfBytes bytes).length = bytes.length / 2
  | [] => rfl
  | [_] => by simp [wordsOfBytes]
  | hi :: lo :: bytes => by
    simp only [wordsOfBytes, List.length_cons, wordsOfBytes_length bytes]
    omega

/-- Word `i` stands at bytes 2i and 2i + 1. -/
theorem bytesOfWords_getElem? (vs : List U16) (i : Nat) :
    (bytesOfWords vs)[2 * i]? = (vs[i]?).map highByte ∧ (bytesOfWords vs)[2 * i + 1]? = (vs[i]?).map lowByte := by
  induction vs generalizing i with
  | nil => simp [bytesOfWords]
  | cons v vs ih =>
    cases i with
    | zero => simp [bytesOfWords]
    | succ i => simpa [bytesOfWords, Nat.mul_succ] using ih i

@[simp] theorem mbapBytes_length (m : Mbap) : (mbapBytes m).length = 7 := rfl

@[simp] theorem requestBytes_length (tid : U16) (uid : U8) (addr qty : U16) :
    (requestBytes tid uid addr qty).length = 12 := rfl

theorem responseBytes_length (m : Mbap) (values : List S16) (trailing : List Byte) :
    (responseBytes m values trailing).length = 9 + 2 * values.length + trailing.length := by
  simp [responseBytes]
  omega

theorem exceptionBytes_length (m : Mbap) (functionLow : BitVec 7) (code : U8) (trailing : List Byte) :
    (exceptionBytes m functionLow code trailing).length = 9 + trailing.length := by
  simp [exceptionBytes]
  omega

end Sys2Proof
end

