-- ==== Sys2Proof/Laws/State.lean ====
section
/-! SUPPORT. What each named update of the state does to each field: one lemma per field per update. -/

namespace Sys2Proof.Machine

/-! ## tick -/

@[simp] theorem State.tick_rv (s : State) : (s.tick).rv = s.rv := rfl
@[simp] theorem State.tick_rvcnt (s : State) : (s.tick).rvcnt = s.rvcnt := rfl
@[simp] theorem State.tick_vel (s : State) : (s.tick).vel = s.vel := rfl
@[simp] theorem State.tick_velvalid (s : State) : (s.tick).velvalid = s.velvalid := rfl
@[simp] theorem State.tick_tid (s : State) : (s.tick).tid = s.tid := rfl
@[simp] theorem State.tick_uid (s : State) : (s.tick).uid = s.uid := rfl
@[simp] theorem State.tick_addr (s : State) : (s.tick).addr = s.addr := rfl
@[simp] theorem State.tick_qty (s : State) : (s.tick).qty = s.qty := rfl
@[simp] theorem State.tick_inflight (s : State) : (s.tick).inflight = s.inflight := rfl
@[simp] theorem State.tick_txb (s : State) : (s.tick).txb = s.txb := rfl
@[simp] theorem State.tick_rxb (s : State) : (s.tick).rxb = s.rxb := rfl
@[simp] theorem State.tick_rxlen (s : State) : (s.tick).rxlen = s.rxlen := rfl
@[simp] theorem State.tick_status (s : State) : (s.tick).status = s.status := rfl
@[simp] theorem State.tick_fresh (s : State) : (s.tick).fresh = s.fresh + 1 := rfl
@[simp] theorem State.tick_pending (s : State) : (s.tick).pending = s.pending := rfl
@[simp] theorem State.tick_hostView (s : State) : (s.tick).hostView = s.hostView := rfl

/-! ## setPending -/

@[simp] theorem State.setPending_rv (s : State) (actions : List HostAction) : (s.setPending actions).rv = s.rv := rfl
@[simp] theorem State.setPending_rvcnt (s : State) (actions : List HostAction) :
    (s.setPending actions).rvcnt = s.rvcnt := rfl
@[simp] theorem State.setPending_vel (s : State) (actions : List HostAction) :
    (s.setPending actions).vel = s.vel := rfl
@[simp] theorem State.setPending_velvalid (s : State) (actions : List HostAction) :
    (s.setPending actions).velvalid = s.velvalid := rfl
@[simp] theorem State.setPending_tid (s : State) (actions : List HostAction) :
    (s.setPending actions).tid = s.tid := rfl
@[simp] theorem State.setPending_uid (s : State) (actions : List HostAction) :
    (s.setPending actions).uid = s.uid := rfl
@[simp] theorem State.setPending_addr (s : State) (actions : List HostAction) :
    (s.setPending actions).addr = s.addr := rfl
@[simp] theorem State.setPending_qty (s : State) (actions : List HostAction) :
    (s.setPending actions).qty = s.qty := rfl
@[simp] theorem State.setPending_inflight (s : State) (actions : List HostAction) :
    (s.setPending actions).inflight = s.inflight := rfl
@[simp] theorem State.setPending_txb (s : State) (actions : List HostAction) :
    (s.setPending actions).txb = s.txb := rfl
@[simp] theorem State.setPending_rxb (s : State) (actions : List HostAction) :
    (s.setPending actions).rxb = s.rxb := rfl
@[simp] theorem State.setPending_rxlen (s : State) (actions : List HostAction) :
    (s.setPending actions).rxlen = s.rxlen := rfl
@[simp] theorem State.setPending_status (s : State) (actions : List HostAction) :
    (s.setPending actions).status = s.status := rfl
@[simp] theorem State.setPending_fresh (s : State) (actions : List HostAction) :
    (s.setPending actions).fresh = s.fresh := rfl
@[simp] theorem State.setPending_pending (s : State) (actions : List HostAction) :
    (s.setPending actions).pending = actions := rfl
@[simp] theorem State.setPending_hostView (s : State) (actions : List HostAction) :
    (s.setPending actions).hostView = s.hostView := rfl

/-! ## handOver -/

@[simp] theorem State.handOver_rv (s : State) (v : HostValue) : (s.handOver v).rv = s.rv := rfl
@[simp] theorem State.handOver_rvcnt (s : State) (v : HostValue) : (s.handOver v).rvcnt = s.rvcnt := rfl
@[simp] theorem State.handOver_vel (s : State) (v : HostValue) : (s.handOver v).vel = s.vel := rfl
@[simp] theorem State.handOver_velvalid (s : State) (v : HostValue) : (s.handOver v).velvalid = s.velvalid := rfl
@[simp] theorem State.handOver_tid (s : State) (v : HostValue) : (s.handOver v).tid = s.tid := rfl
@[simp] theorem State.handOver_uid (s : State) (v : HostValue) : (s.handOver v).uid = s.uid := rfl
@[simp] theorem State.handOver_addr (s : State) (v : HostValue) : (s.handOver v).addr = s.addr := rfl
@[simp] theorem State.handOver_qty (s : State) (v : HostValue) : (s.handOver v).qty = s.qty := rfl
@[simp] theorem State.handOver_inflight (s : State) (v : HostValue) : (s.handOver v).inflight = s.inflight := rfl
@[simp] theorem State.handOver_txb (s : State) (v : HostValue) : (s.handOver v).txb = s.txb := rfl
@[simp] theorem State.handOver_rxb (s : State) (v : HostValue) : (s.handOver v).rxb = s.rxb := rfl
@[simp] theorem State.handOver_rxlen (s : State) (v : HostValue) : (s.handOver v).rxlen = s.rxlen := rfl
@[simp] theorem State.handOver_status (s : State) (v : HostValue) : (s.handOver v).status = s.status := rfl
@[simp] theorem State.handOver_fresh (s : State) (v : HostValue) : (s.handOver v).fresh = s.fresh := rfl
@[simp] theorem State.handOver_pending (s : State) (v : HostValue) : (s.handOver v).pending = s.pending := rfl
@[simp] theorem State.handOver_hostView (s : State) (v : HostValue) : (s.handOver v).hostView = some v := rfl

/-! ## setStatus -/

@[simp] theorem State.setStatus_rv (s : State) (kind : BitVec 3) (exc : U8) : (s.setStatus kind exc).rv = s.rv := rfl
@[simp] theorem State.setStatus_rvcnt (s : State) (kind : BitVec 3) (exc : U8) :
    (s.setStatus kind exc).rvcnt = s.rvcnt := rfl
@[simp] theorem State.setStatus_vel (s : State) (kind : BitVec 3) (exc : U8) :
    (s.setStatus kind exc).vel = s.vel := rfl
@[simp] theorem State.setStatus_velvalid (s : State) (kind : BitVec 3) (exc : U8) :
    (s.setStatus kind exc).velvalid = s.velvalid := rfl
@[simp] theorem State.setStatus_tid (s : State) (kind : BitVec 3) (exc : U8) :
    (s.setStatus kind exc).tid = s.tid := rfl
@[simp] theorem State.setStatus_uid (s : State) (kind : BitVec 3) (exc : U8) :
    (s.setStatus kind exc).uid = s.uid := rfl
@[simp] theorem State.setStatus_addr (s : State) (kind : BitVec 3) (exc : U8) :
    (s.setStatus kind exc).addr = s.addr := rfl
@[simp] theorem State.setStatus_qty (s : State) (kind : BitVec 3) (exc : U8) :
    (s.setStatus kind exc).qty = s.qty := rfl
@[simp] theorem State.setStatus_inflight (s : State) (kind : BitVec 3) (exc : U8) :
    (s.setStatus kind exc).inflight = s.inflight := rfl
@[simp] theorem State.setStatus_txb (s : State) (kind : BitVec 3) (exc : U8) :
    (s.setStatus kind exc).txb = s.txb := rfl
@[simp] theorem State.setStatus_rxb (s : State) (kind : BitVec 3) (exc : U8) :
    (s.setStatus kind exc).rxb = s.rxb := rfl
@[simp] theorem State.setStatus_rxlen (s : State) (kind : BitVec 3) (exc : U8) :
    (s.setStatus kind exc).rxlen = s.rxlen := rfl
@[simp] theorem State.setStatus_status (s : State) (kind : BitVec 3) (exc : U8) :
    (s.setStatus kind exc).status = statusWord kind exc := rfl
@[simp] theorem State.setStatus_fresh (s : State) (kind : BitVec 3) (exc : U8) :
    (s.setStatus kind exc).fresh = s.fresh := rfl
@[simp] theorem State.setStatus_pending (s : State) (kind : BitVec 3) (exc : U8) :
    (s.setStatus kind exc).pending = s.pending := rfl
@[simp] theorem State.setStatus_hostView (s : State) (kind : BitVec 3) (exc : U8) :
    (s.setStatus kind exc).hostView = s.hostView := rfl

/-! ## latchRequest -/

@[simp] theorem State.latchRequest_rv (s : State) (tid : U16) (uid : U8) (addr qty : U16) :
    (s.latchRequest tid uid addr qty).rv = s.rv := rfl
@[simp] theorem State.latchRequest_rvcnt (s : State) (tid : U16) (uid : U8) (addr qty : U16) :
    (s.latchRequest tid uid addr qty).rvcnt = s.rvcnt := rfl
@[simp] theorem State.latchRequest_vel (s : State) (tid : U16) (uid : U8) (addr qty : U16) :
    (s.latchRequest tid uid addr qty).vel = s.vel := rfl
@[simp] theorem State.latchRequest_velvalid (s : State) (tid : U16) (uid : U8) (addr qty : U16) :
    (s.latchRequest tid uid addr qty).velvalid = s.velvalid := rfl
@[simp] theorem State.latchRequest_tid (s : State) (tid : U16) (uid : U8) (addr qty : U16) :
    (s.latchRequest tid uid addr qty).tid = tid := rfl
@[simp] theorem State.latchRequest_uid (s : State) (tid : U16) (uid : U8) (addr qty : U16) :
    (s.latchRequest tid uid addr qty).uid = uid := rfl
@[simp] theorem State.latchRequest_addr (s : State) (tid : U16) (uid : U8) (addr qty : U16) :
    (s.latchRequest tid uid addr qty).addr = addr := rfl
@[simp] theorem State.latchRequest_qty (s : State) (tid : U16) (uid : U8) (addr qty : U16) :
    (s.latchRequest tid uid addr qty).qty = qty := rfl
@[simp] theorem State.latchRequest_inflight (s : State) (tid : U16) (uid : U8) (addr qty : U16) :
    (s.latchRequest tid uid addr qty).inflight = true := rfl
@[simp] theorem State.latchRequest_txb (s : State) (tid : U16) (uid : U8) (addr qty : U16) :
    (s.latchRequest tid uid addr qty).txb = s.txb := rfl
@[simp] theorem State.latchRequest_rxb (s : State) (tid : U16) (uid : U8) (addr qty : U16) :
    (s.latchRequest tid uid addr qty).rxb = s.rxb := rfl
@[simp] theorem State.latchRequest_rxlen (s : State) (tid : U16) (uid : U8) (addr qty : U16) :
    (s.latchRequest tid uid addr qty).rxlen = s.rxlen := rfl
@[simp] theorem State.latchRequest_status (s : State) (tid : U16) (uid : U8) (addr qty : U16) :
    (s.latchRequest tid uid addr qty).status = s.status := rfl
@[simp] theorem State.latchRequest_fresh (s : State) (tid : U16) (uid : U8) (addr qty : U16) :
    (s.latchRequest tid uid addr qty).fresh = s.fresh := rfl
@[simp] theorem State.latchRequest_pending (s : State) (tid : U16) (uid : U8) (addr qty : U16) :
    (s.latchRequest tid uid addr qty).pending = s.pending := rfl
@[simp] theorem State.latchRequest_hostView (s : State) (tid : U16) (uid : U8) (addr qty : U16) :
    (s.latchRequest tid uid addr qty).hostView = s.hostView := rfl

/-! ## clearInflight -/

@[simp] theorem State.clearInflight_rv (s : State) : (s.clearInflight).rv = s.rv := rfl
@[simp] theorem State.clearInflight_rvcnt (s : State) : (s.clearInflight).rvcnt = s.rvcnt := rfl
@[simp] theorem State.clearInflight_vel (s : State) : (s.clearInflight).vel = s.vel := rfl
@[simp] theorem State.clearInflight_velvalid (s : State) : (s.clearInflight).velvalid = s.velvalid := rfl
@[simp] theorem State.clearInflight_tid (s : State) : (s.clearInflight).tid = s.tid := rfl
@[simp] theorem State.clearInflight_uid (s : State) : (s.clearInflight).uid = s.uid := rfl
@[simp] theorem State.clearInflight_addr (s : State) : (s.clearInflight).addr = s.addr := rfl
@[simp] theorem State.clearInflight_qty (s : State) : (s.clearInflight).qty = s.qty := rfl
@[simp] theorem State.clearInflight_inflight (s : State) : (s.clearInflight).inflight = false := rfl
@[simp] theorem State.clearInflight_txb (s : State) : (s.clearInflight).txb = s.txb := rfl
@[simp] theorem State.clearInflight_rxb (s : State) : (s.clearInflight).rxb = s.rxb := rfl
@[simp] theorem State.clearInflight_rxlen (s : State) : (s.clearInflight).rxlen = s.rxlen := rfl
@[simp] theorem State.clearInflight_status (s : State) : (s.clearInflight).status = s.status := rfl
@[simp] theorem State.clearInflight_fresh (s : State) : (s.clearInflight).fresh = s.fresh := rfl
@[simp] theorem State.clearInflight_pending (s : State) : (s.clearInflight).pending = s.pending := rfl
@[simp] theorem State.clearInflight_hostView (s : State) : (s.clearInflight).hostView = s.hostView := rfl

/-! ## setRegisters -/

@[simp] theorem State.setRegisters_rv (s : State) (n : Nat) (value : Nat → S16) :
    (s.setRegisters n value).rv = decodedRegisters n value s.fresh := rfl
@[simp] theorem State.setRegisters_rvcnt (s : State) (n : Nat) (value : Nat → S16) :
    (s.setRegisters n value).rvcnt = BitVec.ofNat 7 n := rfl
@[simp] theorem State.setRegisters_vel (s : State) (n : Nat) (value : Nat → S16) :
    (s.setRegisters n value).vel = s.vel := rfl
@[simp] theorem State.setRegisters_velvalid (s : State) (n : Nat) (value : Nat → S16) :
    (s.setRegisters n value).velvalid = s.velvalid := rfl
@[simp] theorem State.setRegisters_tid (s : State) (n : Nat) (value : Nat → S16) :
    (s.setRegisters n value).tid = s.tid := rfl
@[simp] theorem State.setRegisters_uid (s : State) (n : Nat) (value : Nat → S16) :
    (s.setRegisters n value).uid = s.uid := rfl
@[simp] theorem State.setRegisters_addr (s : State) (n : Nat) (value : Nat → S16) :
    (s.setRegisters n value).addr = s.addr := rfl
@[simp] theorem State.setRegisters_qty (s : State) (n : Nat) (value : Nat → S16) :
    (s.setRegisters n value).qty = s.qty := rfl
@[simp] theorem State.setRegisters_inflight (s : State) (n : Nat) (value : Nat → S16) :
    (s.setRegisters n value).inflight = s.inflight := rfl
@[simp] theorem State.setRegisters_txb (s : State) (n : Nat) (value : Nat → S16) :
    (s.setRegisters n value).txb = s.txb := rfl
@[simp] theorem State.setRegisters_rxb (s : State) (n : Nat) (value : Nat → S16) :
    (s.setRegisters n value).rxb = s.rxb := rfl
@[simp] theorem State.setRegisters_rxlen (s : State) (n : Nat) (value : Nat → S16) :
    (s.setRegisters n value).rxlen = s.rxlen := rfl
@[simp] theorem State.setRegisters_status (s : State) (n : Nat) (value : Nat → S16) :
    (s.setRegisters n value).status = s.status := rfl
@[simp] theorem State.setRegisters_fresh (s : State) (n : Nat) (value : Nat → S16) :
    (s.setRegisters n value).fresh = s.fresh := rfl
@[simp] theorem State.setRegisters_pending (s : State) (n : Nat) (value : Nat → S16) :
    (s.setRegisters n value).pending = s.pending := rfl
@[simp] theorem State.setRegisters_hostView (s : State) (n : Nat) (value : Nat → S16) :
    (s.setRegisters n value).hostView = s.hostView := rfl

/-! ## invalidateRegisters -/

@[simp] theorem State.invalidateRegisters_rv (s : State) : (s.invalidateRegisters).rv = freeRegisters s.fresh := rfl
@[simp] theorem State.invalidateRegisters_rvcnt (s : State) : (s.invalidateRegisters).rvcnt = 0#7 := rfl
@[simp] theorem State.invalidateRegisters_vel (s : State) : (s.invalidateRegisters).vel = s.vel := rfl
@[simp] theorem State.invalidateRegisters_velvalid (s : State) : (s.invalidateRegisters).velvalid = s.velvalid := rfl
@[simp] theorem State.invalidateRegisters_tid (s : State) : (s.invalidateRegisters).tid = s.tid := rfl
@[simp] theorem State.invalidateRegisters_uid (s : State) : (s.invalidateRegisters).uid = s.uid := rfl
@[simp] theorem State.invalidateRegisters_addr (s : State) : (s.invalidateRegisters).addr = s.addr := rfl
@[simp] theorem State.invalidateRegisters_qty (s : State) : (s.invalidateRegisters).qty = s.qty := rfl
@[simp] theorem State.invalidateRegisters_inflight (s : State) : (s.invalidateRegisters).inflight = s.inflight := rfl
@[simp] theorem State.invalidateRegisters_txb (s : State) : (s.invalidateRegisters).txb = s.txb := rfl
@[simp] theorem State.invalidateRegisters_rxb (s : State) : (s.invalidateRegisters).rxb = s.rxb := rfl
@[simp] theorem State.invalidateRegisters_rxlen (s : State) : (s.invalidateRegisters).rxlen = s.rxlen := rfl
@[simp] theorem State.invalidateRegisters_status (s : State) : (s.invalidateRegisters).status = s.status := rfl
@[simp] theorem State.invalidateRegisters_fresh (s : State) : (s.invalidateRegisters).fresh = s.fresh := rfl
@[simp] theorem State.invalidateRegisters_pending (s : State) : (s.invalidateRegisters).pending = s.pending := rfl
@[simp] theorem State.invalidateRegisters_hostView (s : State) : (s.invalidateRegisters).hostView = s.hostView := rfl

/-! ## setVelocities -/

@[simp] theorem State.setVelocities_rv (s : State) (value : Fin 6 → F64) : (s.setVelocities value).rv = s.rv := rfl
@[simp] theorem State.setVelocities_rvcnt (s : State) (value : Fin 6 → F64) :
    (s.setVelocities value).rvcnt = s.rvcnt := rfl
@[simp] theorem State.setVelocities_vel (s : State) (value : Fin 6 → F64) :
    (s.setVelocities value).vel = Vector.ofFn value := rfl
@[simp] theorem State.setVelocities_velvalid (s : State) (value : Fin 6 → F64) :
    (s.setVelocities value).velvalid = true := rfl
@[simp] theorem State.setVelocities_tid (s : State) (value : Fin 6 → F64) : (s.setVelocities value).tid = s.tid := rfl
@[simp] theorem State.setVelocities_uid (s : State) (value : Fin 6 → F64) : (s.setVelocities value).uid = s.uid := rfl
@[simp] theorem State.setVelocities_addr (s : State) (value : Fin 6 → F64) :
    (s.setVelocities value).addr = s.addr := rfl
@[simp] theorem State.setVelocities_qty (s : State) (value : Fin 6 → F64) : (s.setVelocities value).qty = s.qty := rfl
@[simp] theorem State.setVelocities_inflight (s : State) (value : Fin 6 → F64) :
    (s.setVelocities value).inflight = s.inflight := rfl
@[simp] theorem State.setVelocities_txb (s : State) (value : Fin 6 → F64) : (s.setVelocities value).txb = s.txb := rfl
@[simp] theorem State.setVelocities_rxb (s : State) (value : Fin 6 → F64) : (s.setVelocities value).rxb = s.rxb := rfl
@[simp] theorem State.setVelocities_rxlen (s : State) (value : Fin 6 → F64) :
    (s.setVelocities value).rxlen = s.rxlen := rfl
@[simp] theorem State.setVelocities_status (s : State) (value : Fin 6 → F64) :
    (s.setVelocities value).status = s.status := rfl
@[simp] theorem State.setVelocities_fresh (s : State) (value : Fin 6 → F64) :
    (s.setVelocities value).fresh = s.fresh := rfl
@[simp] theorem State.setVelocities_pending (s : State) (value : Fin 6 → F64) :
    (s.setVelocities value).pending = s.pending := rfl
@[simp] theorem State.setVelocities_hostView (s : State) (value : Fin 6 → F64) :
    (s.setVelocities value).hostView = s.hostView := rfl

/-! ## invalidateVelocities -/

@[simp] theorem State.invalidateVelocities_rv (s : State) : (s.invalidateVelocities).rv = s.rv := rfl
@[simp] theorem State.invalidateVelocities_rvcnt (s : State) : (s.invalidateVelocities).rvcnt = s.rvcnt := rfl
@[simp] theorem State.invalidateVelocities_vel (s : State) :
    (s.invalidateVelocities).vel = freeVelocities s.fresh := rfl
@[simp] theorem State.invalidateVelocities_velvalid (s : State) : (s.invalidateVelocities).velvalid = false := rfl
@[simp] theorem State.invalidateVelocities_tid (s : State) : (s.invalidateVelocities).tid = s.tid := rfl
@[simp] theorem State.invalidateVelocities_uid (s : State) : (s.invalidateVelocities).uid = s.uid := rfl
@[simp] theorem State.invalidateVelocities_addr (s : State) : (s.invalidateVelocities).addr = s.addr := rfl
@[simp] theorem State.invalidateVelocities_qty (s : State) : (s.invalidateVelocities).qty = s.qty := rfl
@[simp] theorem State.invalidateVelocities_inflight (s : State) : (s.invalidateVelocities).inflight = s.inflight := rfl
@[simp] theorem State.invalidateVelocities_txb (s : State) : (s.invalidateVelocities).txb = s.txb := rfl
@[simp] theorem State.invalidateVelocities_rxb (s : State) : (s.invalidateVelocities).rxb = s.rxb := rfl
@[simp] theorem State.invalidateVelocities_rxlen (s : State) : (s.invalidateVelocities).rxlen = s.rxlen := rfl
@[simp] theorem State.invalidateVelocities_status (s : State) : (s.invalidateVelocities).status = s.status := rfl
@[simp] theorem State.invalidateVelocities_fresh (s : State) : (s.invalidateVelocities).fresh = s.fresh := rfl
@[simp] theorem State.invalidateVelocities_pending (s : State) : (s.invalidateVelocities).pending = s.pending := rfl
@[simp] theorem State.invalidateVelocities_hostView (s : State) : (s.invalidateVelocities).hostView = s.hostView := rfl

/-! ## loadReceived -/

@[simp] theorem State.loadReceived_rv (s : State) (bytes : List Byte) : (s.loadReceived bytes).rv = s.rv := rfl
@[simp] theorem State.loadReceived_rvcnt (s : State) (bytes : List Byte) :
    (s.loadReceived bytes).rvcnt = s.rvcnt := rfl
@[simp] theorem State.loadReceived_vel (s : State) (bytes : List Byte) : (s.loadReceived bytes).vel = s.vel := rfl
@[simp] theorem State.loadReceived_velvalid (s : State) (bytes : List Byte) :
    (s.loadReceived bytes).velvalid = s.velvalid := rfl
@[simp] theorem State.loadReceived_tid (s : State) (bytes : List Byte) : (s.loadReceived bytes).tid = s.tid := rfl
@[simp] theorem State.loadReceived_uid (s : State) (bytes : List Byte) : (s.loadReceived bytes).uid = s.uid := rfl
@[simp] theorem State.loadReceived_addr (s : State) (bytes : List Byte) : (s.loadReceived bytes).addr = s.addr := rfl
@[simp] theorem State.loadReceived_qty (s : State) (bytes : List Byte) : (s.loadReceived bytes).qty = s.qty := rfl
@[simp] theorem State.loadReceived_inflight (s : State) (bytes : List Byte) :
    (s.loadReceived bytes).inflight = s.inflight := rfl
@[simp] theorem State.loadReceived_txb (s : State) (bytes : List Byte) : (s.loadReceived bytes).txb = s.txb := rfl
@[simp] theorem State.loadReceived_rxb (s : State) (bytes : List Byte) :
    (s.loadReceived bytes).rxb = Memory.ofBytes 0 (bytes.take Buffer.rxb.size) := rfl
@[simp] theorem State.loadReceived_rxlen (s : State) (bytes : List Byte) :
    (s.loadReceived bytes).rxlen = BitVec.ofNat 9 (min bytes.length Buffer.rxb.size) := rfl
@[simp] theorem State.loadReceived_status (s : State) (bytes : List Byte) :
    (s.loadReceived bytes).status = s.status := rfl
@[simp] theorem State.loadReceived_fresh (s : State) (bytes : List Byte) :
    (s.loadReceived bytes).fresh = s.fresh := rfl
@[simp] theorem State.loadReceived_pending (s : State) (bytes : List Byte) :
    (s.loadReceived bytes).pending = s.pending := rfl
@[simp] theorem State.loadReceived_hostView (s : State) (bytes : List Byte) :
    (s.loadReceived bytes).hostView = s.hostView := rfl

/-! ## Writing TXB -/

@[simp] theorem memWrite1_txb_rv (s : State) (offset : Nat) (v : U8) :
    (memWrite1 .txb offset v s).rv = s.rv := rfl
@[simp] theorem memWrite1_txb_rvcnt (s : State) (offset : Nat) (v : U8) :
    (memWrite1 .txb offset v s).rvcnt = s.rvcnt := rfl
@[simp] theorem memWrite1_txb_vel (s : State) (offset : Nat) (v : U8) :
    (memWrite1 .txb offset v s).vel = s.vel := rfl
@[simp] theorem memWrite1_txb_velvalid (s : State) (offset : Nat) (v : U8) :
    (memWrite1 .txb offset v s).velvalid = s.velvalid := rfl
@[simp] theorem memWrite1_txb_tid (s : State) (offset : Nat) (v : U8) :
    (memWrite1 .txb offset v s).tid = s.tid := rfl
@[simp] theorem memWrite1_txb_uid (s : State) (offset : Nat) (v : U8) :
    (memWrite1 .txb offset v s).uid = s.uid := rfl
@[simp] theorem memWrite1_txb_addr (s : State) (offset : Nat) (v : U8) :
    (memWrite1 .txb offset v s).addr = s.addr := rfl
@[simp] theorem memWrite1_txb_qty (s : State) (offset : Nat) (v : U8) :
    (memWrite1 .txb offset v s).qty = s.qty := rfl
@[simp] theorem memWrite1_txb_inflight (s : State) (offset : Nat) (v : U8) :
    (memWrite1 .txb offset v s).inflight = s.inflight := rfl
@[simp] theorem memWrite1_txb_txb (s : State) (offset : Nat) (v : U8) :
    (memWrite1 .txb offset v s).txb = Memory.write s.txb offset v := rfl
@[simp] theorem memWrite1_txb_rxb (s : State) (offset : Nat) (v : U8) :
    (memWrite1 .txb offset v s).rxb = s.rxb := rfl
@[simp] theorem memWrite1_txb_rxlen (s : State) (offset : Nat) (v : U8) :
    (memWrite1 .txb offset v s).rxlen = s.rxlen := rfl
@[simp] theorem memWrite1_txb_status (s : State) (offset : Nat) (v : U8) :
    (memWrite1 .txb offset v s).status = s.status := rfl
@[simp] theorem memWrite1_txb_fresh (s : State) (offset : Nat) (v : U8) :
    (memWrite1 .txb offset v s).fresh = s.fresh := rfl
@[simp] theorem memWrite1_txb_pending (s : State) (offset : Nat) (v : U8) :
    (memWrite1 .txb offset v s).pending = s.pending := rfl
@[simp] theorem memWrite1_txb_hostView (s : State) (offset : Nat) (v : U8) :
    (memWrite1 .txb offset v s).hostView = s.hostView := rfl

@[simp] theorem memWrite2_txb_rv (s : State) (offset : Nat) (v : U16) :
    (memWrite2 .txb offset v s).rv = s.rv := rfl
@[simp] theorem memWrite2_txb_rvcnt (s : State) (offset : Nat) (v : U16) :
    (memWrite2 .txb offset v s).rvcnt = s.rvcnt := rfl
@[simp] theorem memWrite2_txb_vel (s : State) (offset : Nat) (v : U16) :
    (memWrite2 .txb offset v s).vel = s.vel := rfl
@[simp] theorem memWrite2_txb_velvalid (s : State) (offset : Nat) (v : U16) :
    (memWrite2 .txb offset v s).velvalid = s.velvalid := rfl
@[simp] theorem memWrite2_txb_tid (s : State) (offset : Nat) (v : U16) :
    (memWrite2 .txb offset v s).tid = s.tid := rfl
@[simp] theorem memWrite2_txb_uid (s : State) (offset : Nat) (v : U16) :
    (memWrite2 .txb offset v s).uid = s.uid := rfl
@[simp] theorem memWrite2_txb_addr (s : State) (offset : Nat) (v : U16) :
    (memWrite2 .txb offset v s).addr = s.addr := rfl
@[simp] theorem memWrite2_txb_qty (s : State) (offset : Nat) (v : U16) :
    (memWrite2 .txb offset v s).qty = s.qty := rfl
@[simp] theorem memWrite2_txb_inflight (s : State) (offset : Nat) (v : U16) :
    (memWrite2 .txb offset v s).inflight = s.inflight := rfl
@[simp] theorem memWrite2_txb_txb (s : State) (offset : Nat) (v : U16) :
    (memWrite2 .txb offset v s).txb =
      Memory.write (Memory.write s.txb offset (highByte v)) (offset + 1) (lowByte v) := rfl
@[simp] theorem memWrite2_txb_rxb (s : State) (offset : Nat) (v : U16) :
    (memWrite2 .txb offset v s).rxb = s.rxb := rfl
@[simp] theorem memWrite2_txb_rxlen (s : State) (offset : Nat) (v : U16) :
    (memWrite2 .txb offset v s).rxlen = s.rxlen := rfl
@[simp] theorem memWrite2_txb_status (s : State) (offset : Nat) (v : U16) :
    (memWrite2 .txb offset v s).status = s.status := rfl
@[simp] theorem memWrite2_txb_fresh (s : State) (offset : Nat) (v : U16) :
    (memWrite2 .txb offset v s).fresh = s.fresh := rfl
@[simp] theorem memWrite2_txb_pending (s : State) (offset : Nat) (v : U16) :
    (memWrite2 .txb offset v s).pending = s.pending := rfl
@[simp] theorem memWrite2_txb_hostView (s : State) (offset : Nat) (v : U16) :
    (memWrite2 .txb offset v s).hostView = s.hostView := rfl

/-! ## Writing RXB (no operation does: R25) -/

@[simp] theorem memWrite1_rxb_rv (s : State) (offset : Nat) (v : U8) :
    (memWrite1 .rxb offset v s).rv = s.rv := rfl
@[simp] theorem memWrite1_rxb_rvcnt (s : State) (offset : Nat) (v : U8) :
    (memWrite1 .rxb offset v s).rvcnt = s.rvcnt := rfl
@[simp] theorem memWrite1_rxb_vel (s : State) (offset : Nat) (v : U8) :
    (memWrite1 .rxb offset v s).vel = s.vel := rfl
@[simp] theorem memWrite1_rxb_velvalid (s : State) (offset : Nat) (v : U8) :
    (memWrite1 .rxb offset v s).velvalid = s.velvalid := rfl
@[simp] theorem memWrite1_rxb_tid (s : State) (offset : Nat) (v : U8) :
    (memWrite1 .rxb offset v s).tid = s.tid := rfl
@[simp] theorem memWrite1_rxb_uid (s : State) (offset : Nat) (v : U8) :
    (memWrite1 .rxb offset v s).uid = s.uid := rfl
@[simp] theorem memWrite1_rxb_addr (s : State) (offset : Nat) (v : U8) :
    (memWrite1 .rxb offset v s).addr = s.addr := rfl
@[simp] theorem memWrite1_rxb_qty (s : State) (offset : Nat) (v : U8) :
    (memWrite1 .rxb offset v s).qty = s.qty := rfl
@[simp] theorem memWrite1_rxb_inflight (s : State) (offset : Nat) (v : U8) :
    (memWrite1 .rxb offset v s).inflight = s.inflight := rfl
@[simp] theorem memWrite1_rxb_txb (s : State) (offset : Nat) (v : U8) :
    (memWrite1 .rxb offset v s).txb = s.txb := rfl
@[simp] theorem memWrite1_rxb_rxb (s : State) (offset : Nat) (v : U8) :
    (memWrite1 .rxb offset v s).rxb = Memory.write s.rxb offset v := rfl
@[simp] theorem memWrite1_rxb_rxlen (s : State) (offset : Nat) (v : U8) :
    (memWrite1 .rxb offset v s).rxlen = s.rxlen := rfl
@[simp] theorem memWrite1_rxb_status (s : State) (offset : Nat) (v : U8) :
    (memWrite1 .rxb offset v s).status = s.status := rfl
@[simp] theorem memWrite1_rxb_fresh (s : State) (offset : Nat) (v : U8) :
    (memWrite1 .rxb offset v s).fresh = s.fresh := rfl
@[simp] theorem memWrite1_rxb_pending (s : State) (offset : Nat) (v : U8) :
    (memWrite1 .rxb offset v s).pending = s.pending := rfl
@[simp] theorem memWrite1_rxb_hostView (s : State) (offset : Nat) (v : U8) :
    (memWrite1 .rxb offset v s).hostView = s.hostView := rfl

/-! ## Reading a buffer -/

@[simp] theorem State.buffer_txb (s : State) : s.buffer .txb = s.txb := rfl
@[simp] theorem State.buffer_rxb (s : State) : s.buffer .rxb = s.rxb := rfl
@[simp] theorem Buffer.size_txb : Buffer.txb.size = 12 := rfl
@[simp] theorem Buffer.size_rxb : Buffer.rxb.size = 263 := rfl

end Sys2Proof.Machine
end

