-- ==== Sys2Proof/Laws/Flags.lean ====
section
/-! SUPPORT. STATUS (10_state.md R27): its fields after a write, and the legal values. -/

namespace Sys2Proof.Machine

theorem statusWord_toNat (kind : BitVec 3) (exc : U8) :
    (statusWord kind exc).toNat = exc.toNat * 256 + kind.toNat := by
  have h1 : (statusWord kind exc).toNat = (exc ++ 0#5).toNat <<< 3 ||| kind.toNat := BitVec.toNat_append _ _
  have h2 : (exc ++ 0#5).toNat = exc.toNat <<< 5 ||| (0#5).toNat := BitVec.toNat_append _ _
  rw [h1, ← Nat.shiftLeft_add_eq_or_of_lt kind.isLt, h2, ← Nat.shiftLeft_add_eq_or_of_lt (0#5).isLt]
  simp only [Nat.shiftLeft_eq, BitVec.toNat_ofNat]
  omega

@[simp] theorem State.kind_setStatus (s : State) (kind : BitVec 3) (exc : U8) : (s.setStatus kind exc).kind = kind := by
  have h1 := kind.isLt
  apply BitVec.eq_of_toNat_eq
  simp only [State.kind, State.setStatus_status, BitVec.extractLsb'_toNat, statusWord_toNat, Nat.shiftRight_eq_div_pow]
  omega

@[simp] theorem State.exc_setStatus (s : State) (kind : BitVec 3) (exc : U8) : (s.setStatus kind exc).exc = exc := by
  have h1 := kind.isLt
  have h2 := exc.isLt
  apply BitVec.eq_of_toNat_eq
  simp only [State.exc, State.setStatus_status, BitVec.extractLsb'_toNat, statusWord_toNat, Nat.shiftRight_eq_div_pow]
  omega

/-- KIND and EXC depend on STATUS only. -/
theorem State.kind_congr {s t : State} (h : t.status = s.status) : t.kind = s.kind := by simp [State.kind, h]

theorem State.exc_congr {s t : State} (h : t.status = s.status) : t.exc = s.exc := by simp [State.exc, h]

@[simp] theorem State.kind_tick (s : State) : s.tick.kind = s.kind := rfl

@[simp] theorem State.exc_tick (s : State) : s.tick.exc = s.exc := rfl

/-- A written STATUS is legal when its code is one of R98's and EXC is 0 outside KIND 4. -/
theorem State.statusLegal_setStatus (s : State) (kind : BitVec 3) (exc : U8) (hk : kind.toNat ≤ 5)
    (he : kind ≠ 4#3 → exc = 0#8) : (s.setStatus kind exc).StatusLegal := by
  refine ⟨?_, by simpa using hk, by simpa using he⟩
  have h1 := kind.isLt
  apply BitVec.eq_of_toNat_eq
  simp only [State.setStatus_status, BitVec.extractLsb'_toNat, statusWord_toNat, Nat.shiftRight_eq_div_pow,
    BitVec.toNat_ofNat]
  omega

theorem Failure.kind_le (k : Failure) : k.kind.toNat ≤ 5 := by cases k <;> simp [Failure.kind]

theorem Failure.exc_eq_zero (k : Failure) (h : k.kind ≠ 4#3) : k.exc = 0#8 := by
  cases k <;> simp_all [Failure.kind, Failure.exc]

/-- The four failures have different codes, and none is NONE or OK. -/
theorem Failure.kind_ne_ok (k : Failure) : k.kind ≠ 1#3 := by cases k <;> simp [Failure.kind]

end Sys2Proof.Machine
end

