-- ==== Sys2Proof/Laws/Float64.lean ====
section
/-! SUPPORT. The parts of a packed float, and what rounding keeps: `round` gives `m * 2^e` units, m the nearest even integer
at the exponent step e. -/

namespace Sys2Proof.Machine

/-! ## Parts of a packed float -/

theorem Float64.pack_toNat (negative : Bool) (body : Nat) :
    (Float64.pack negative body).toNat = (if negative then 2 ^ 63 else 0) + min body (2047 * 2 ^ 52) := by
  simp only [Float64.pack, BitVec.toNat_ofNat]
  apply Nat.mod_eq_of_lt
  split <;> omega

@[simp] theorem Float64.sign_pack (negative : Bool) (body : Nat) :
    Float64.sign (Float64.pack negative body) = negative := by
  simp only [Float64.sign, BitVec.msb_eq_decide, Float64.pack_toNat]
  cases negative <;> simp

theorem Float64.exponent_pack (negative : Bool) {body : Nat} (h : body ≤ 2047 * 2 ^ 52) :
    Float64.exponent (Float64.pack negative body) = body / 2 ^ 52 := by
  simp only [Float64.exponent, BitVec.extractLsb'_toNat, Float64.pack_toNat, Nat.shiftRight_eq_div_pow,
    Nat.min_eq_left h]
  split <;> omega

theorem Float64.fraction_pack (negative : Bool) {body : Nat} (h : body ≤ 2047 * 2 ^ 52) :
    Float64.fraction (Float64.pack negative body) = body % 2 ^ 52 := by
  simp only [Float64.fraction, BitVec.extractLsb'_toNat, Float64.pack_toNat, Nat.shiftRight_eq_div_pow,
    Nat.min_eq_left h]
  split <;> omega

theorem Float64.finite_pack (negative : Bool) {body : Nat} (h : body < 2047 * 2 ^ 52) :
    Float64.finite (Float64.pack negative body) = true := by
  simp only [Float64.finite, Float64.exponent_pack negative (Nat.le_of_lt h), decide_eq_true_eq]
  omega

/-- Exponent and fraction of a kept significand: `e * 2^52 + m` stands for m * 2^e units. -/
theorem Float64.magnitude_pack (negative : Bool) {e m : Nat} (hm : m ≤ 2 ^ 53) (he : e = 0 ∨ 2 ^ 52 ≤ m)
    (hb : e * 2 ^ 52 + m < 2047 * 2 ^ 52) : Float64.magnitude (Float64.pack negative (e * 2 ^ 52 + m)) = m * 2 ^ e := by
  simp only [Float64.magnitude, Float64.exponent_pack negative (Nat.le_of_lt hb),
    Float64.fraction_pack negative (Nat.le_of_lt hb)]
  rcases Nat.lt_or_ge m (2 ^ 52) with h1 | h1
  · have he0 : e = 0 := by omega
    subst he0
    have hd : (0 * 2 ^ 52 + m) / 2 ^ 52 = 0 := by omega
    rw [if_pos hd]
    omega
  · rcases Nat.lt_or_ge m (2 ^ 53) with h2 | h2
    · have hd : (e * 2 ^ 52 + m) / 2 ^ 52 = e + 1 := by omega
      have hr : (e * 2 ^ 52 + m) % 2 ^ 52 = m - 2 ^ 52 := by omega
      have hk : 2 ^ 52 + (m - 2 ^ 52) = m := by omega
      rw [hd, hr, if_neg (by omega), Nat.add_sub_cancel, hk]
    · have hm2 : m = 2 ^ 53 := by omega
      have hd : (e * 2 ^ 52 + m) / 2 ^ 52 = e + 2 := by omega
      have hr : (e * 2 ^ 52 + m) % 2 ^ 52 = 0 := by omega
      have hp : 2 ^ (e + 2 - 1) = 2 * 2 ^ e := by
        rw [show e + 2 - 1 = e + 1 by omega, Nat.pow_succ, Nat.mul_comm]
      have hk : 2 ^ 52 * 2 = m := by omega
      rw [hd, hr, if_neg (by omega), hp, Nat.add_zero, ← Nat.mul_assoc, hk]

/-! ## The nearest even integer -/

theorem Float64.nearestEven_cases (num den : Nat) :
    Float64.nearestEven num den = num / den ∨ Float64.nearestEven num den = num / den + 1 := by
  simp only [Float64.nearestEven]
  split <;> simp

/-- It is at most half a unit away, from below and from above. -/
theorem Float64.nearestEven_bounds (num : Nat) {den : Nat} (h : 0 < den) :
    2 * num ≤ 2 * (Float64.nearestEven num den * den) + den ∧
      2 * (Float64.nearestEven num den * den) ≤ 2 * num + den := by
  have hdm := Nat.div_add_mod num den
  have hr := Nat.mod_lt num h
  have hc : den * (num / den) = num / den * den := Nat.mul_comm _ _
  simp only [Float64.nearestEven]
  split
  · next hcase =>
    rw [Nat.add_mul, Nat.one_mul]
    rcases hcase with hcase | ⟨hcase, _⟩ <;> constructor <;> omega
  · next hcase =>
    have hle : 2 * (num % den) ≤ den := by
      rcases Nat.lt_or_ge den (2 * (num % den)) with hlt | hge
      · exact absurd (.inl hlt) hcase
      · exact hge
    constructor <;> omega

/-- An exact quotient is kept. -/
theorem Float64.nearestEven_exact (m : Nat) {den : Nat} (h : 0 < den) : Float64.nearestEven (m * den) den = m := by
  have hr : m * den % den = 0 := Nat.mul_mod_left m den
  have hd : m * den / den = m := Nat.mul_div_cancel m h
  have hn : ¬ (den < 0 ∨ (0 = den ∧ m % 2 = 1)) := by omega
  simp only [Float64.nearestEven, hr, hd, Nat.mul_zero, if_neg hn]

/-! ## The exponent step -/

theorem Float64.step_of_lt {q : Nat} (h : q < 2 ^ 53) : Float64.step q = 0 := by
  have hl : Nat.log2 q < 53 := by
    rcases Nat.eq_zero_or_pos q with rfl | hq
    · decide
    · exact (Nat.log2_lt (by omega)).2 h
  simp only [Float64.step]
  omega

/-- Above 2^53 the step leaves between 2^52 and 2^53 at the kept place. -/
theorem Float64.step_of_ge {q : Nat} (h : 2 ^ 53 ≤ q) :
    2 ^ 52 * 2 ^ Float64.step q ≤ q ∧ q < 2 ^ 53 * 2 ^ Float64.step q := by
  have hq : q ≠ 0 := by omega
  have hl : 53 ≤ Nat.log2 q := (Nat.le_log2 hq).2 h
  have h1 : 2 ^ Nat.log2 q ≤ q := Nat.log2_self_le hq
  have h2 : q < 2 ^ (Nat.log2 q + 1) := Nat.lt_log2_self
  have he : Float64.step q = Nat.log2 q - 52 := rfl
  rw [he, ← Nat.pow_add, ← Nat.pow_add]
  rw [show 52 + (Nat.log2 q - 52) = Nat.log2 q by omega, show 53 + (Nat.log2 q - 52) = Nat.log2 q + 1 by omega]
  exact ⟨h1, h2⟩

/-- The kept significand fits, and is normal unless the step is 0. -/
theorem Float64.kept_bounds (n den : Nat) :
    Float64.nearestEven n (den * 2 ^ Float64.step (n / den)) ≤ 2 ^ 53 ∧
      (Float64.step (n / den) = 0 ∨ 2 ^ 52 ≤ Float64.nearestEven n (den * 2 ^ Float64.step (n / den))) := by
  have hpos : 0 < 2 ^ Float64.step (n / den) := Nat.two_pow_pos _
  have hdd : n / (den * 2 ^ Float64.step (n / den)) = n / den / 2 ^ Float64.step (n / den) :=
    (Nat.div_div_eq_div_mul n den _).symm
  have hc := Float64.nearestEven_cases n (den * 2 ^ Float64.step (n / den))
  rw [hdd] at hc
  rcases Nat.lt_or_ge (n / den) (2 ^ 53) with hq | hq
  · have hs := Float64.step_of_lt hq
    rw [hs, Nat.pow_zero, Nat.div_one] at hc
    exact ⟨by rw [hs, Nat.pow_zero]; omega, .inl hs⟩
  · obtain ⟨h1, h2⟩ := Float64.step_of_ge hq
    have hlo : 2 ^ 52 ≤ n / den / 2 ^ Float64.step (n / den) := (Nat.le_div_iff_mul_le hpos).2 h1
    have hhi : n / den / 2 ^ Float64.step (n / den) < 2 ^ 53 := (Nat.div_lt_iff_lt_mul hpos).2 h2
    exact ⟨by omega, .inr (by omega)⟩

/-! ## The parts of `cvt` and the scale -/

theorem Float64.scale_parts : Float64.sign Float64.scale = false ∧ Float64.exponent Float64.scale = 1032 ∧
    Float64.fraction Float64.scale = 0xF400000000000 := by decide

theorem Float64.cvt_zero : Float64.cvt 0#16 = 0#64 := by decide +kernel

end Sys2Proof.Machine
end

