-- ==== Sys2Proof/Laws/Memory.lean ====
section
/-! SUPPORT. The laws of a buffer's memory: a read after a write, the canonical form, a memory made of a byte list. -/

namespace Sys2Proof.Machine

@[simp] theorem Memory.read_nil (offset : Nat) : Memory.read [] offset = none := rfl

theorem Memory.read_cons (a : Nat) (b : Byte) (m : Memory) (offset : Nat) :
    Memory.read ((a, b) :: m) offset = if offset = a then some b else Memory.read m offset := rfl

@[simp] theorem Memory.read_write_same (m : Memory) (offset : Nat) (v : Byte) :
    Memory.read (Memory.write m offset v) offset = some v := by
  induction m with
  | nil => simp [Memory.write, Memory.read]
  | cons cell m ih =>
    obtain ⟨a, b⟩ := cell
    simp only [Memory.write]
    split
    · simp [Memory.read]
    · split
      · simp [Memory.read]
      · simp [Memory.read, *]

theorem Memory.read_write_ne (m : Memory) {offset other : Nat} (v : Byte) (h : other ≠ offset) :
    Memory.read (Memory.write m offset v) other = Memory.read m other := by
  induction m with
  | nil => simp [Memory.write, Memory.read, h]
  | cons cell m ih =>
    obtain ⟨a, b⟩ := cell
    simp only [Memory.write]
    split
    · simp [Memory.read, h]
    · split
      · next h2 => subst h2; simp [Memory.read, h]
      · simp [Memory.read, ih]

/-- A read after a write, in one equation. -/
theorem Memory.read_write (m : Memory) (offset other : Nat) (v : Byte) :
    Memory.read (Memory.write m offset v) other = if other = offset then some v else Memory.read m other := by
  split
  · next h => subst h; simp
  · next h => exact Memory.read_write_ne m v h

/-- The cells after a write are the written one and old ones. -/
theorem Memory.mem_write {m : Memory} {offset : Nat} {v : Byte} {cell : Host.Cell}
    (h : cell ∈ Memory.write m offset v) : cell = (offset, v) ∨ cell ∈ m := by
  induction m with
  | nil => simpa [Memory.write] using h
  | cons head m ih =>
    obtain ⟨a, b⟩ := head
    simp only [Memory.write] at h
    split at h
    · simpa using h
    · split at h
      · rcases List.mem_cons.1 h with h | h <;> simp [h]
      · rcases List.mem_cons.1 h with h | h
        · simp [h]
        · rcases ih h with h | h <;> simp [h]

/-- A write keeps the canonical form. -/
theorem Memory.wf_write {m : Memory} (offset : Nat) (v : Byte) (h : Memory.wf m) :
    Memory.wf (Memory.write m offset v) := by
  induction m with
  | nil => simp [Memory.write, Memory.wf]
  | cons head m ih =>
    obtain ⟨a, b⟩ := head
    obtain ⟨hhead, htail⟩ := List.pairwise_cons.1 h
    simp only [Memory.write]
    split
    · next hlt =>
      refine List.pairwise_cons.2 ⟨fun cell hc => ?_, h⟩
      rcases List.mem_cons.1 hc with rfl | hc
      · exact hlt
      · exact Nat.lt_trans hlt (hhead cell hc)
    · split
      · next heq => subst heq; exact List.pairwise_cons.2 ⟨hhead, htail⟩
      · refine List.pairwise_cons.2 ⟨fun cell hc => ?_, ih htail⟩
        rcases Memory.mem_write hc with rfl | hc
        · show a < offset
          omega
        · exact hhead cell hc

/-- A write below a bound keeps every offset below it. -/
theorem Memory.below_write {m : Memory} {offset bound : Nat} (v : Byte) (h : Memory.below m bound)
    (ho : offset < bound) : Memory.below (Memory.write m offset v) bound := by
  intro cell hc
  rcases Memory.mem_write hc with rfl | hc
  · exact ho
  · exact h cell hc

theorem Memory.ofBytes_ge {start : Nat} {bytes : List Byte} {cell : Host.Cell}
    (h : cell ∈ Memory.ofBytes start bytes) : start ≤ cell.1 := by
  induction bytes generalizing start with
  | nil => simp [Memory.ofBytes] at h
  | cons b bytes ih =>
    rcases List.mem_cons.1 h with rfl | h
    · exact Nat.le_refl _
    · have := ih h
      omega

/-- A memory made of a byte list is canonical. -/
theorem Memory.wf_ofBytes (start : Nat) (bytes : List Byte) : Memory.wf (Memory.ofBytes start bytes) := by
  induction bytes generalizing start with
  | nil => simp [Memory.ofBytes, Memory.wf]
  | cons b bytes ih =>
    refine List.pairwise_cons.2 ⟨fun cell hc => ?_, ih (start + 1)⟩
    have := Memory.ofBytes_ge hc
    show start < cell.1
    omega

/-- What a memory made of a byte list reads as. -/
theorem Memory.read_ofBytes (start : Nat) (bytes : List Byte) (i : Nat) :
    Memory.read (Memory.ofBytes start bytes) (start + i) = bytes[i]? := by
  induction bytes generalizing start i with
  | nil => simp [Memory.ofBytes]
  | cons b bytes ih =>
    cases i with
    | zero => simp [Memory.ofBytes, Memory.read]
    | succ i =>
      have h : start + (i + 1) = (start + 1) + i := by omega
      have hne : start + 1 + i ≠ start := by omega
      simp [Memory.ofBytes, Memory.read, h, hne, ih (start + 1) i]

@[simp] theorem Memory.read_ofBytes_zero (bytes : List Byte) (i : Nat) :
    Memory.read (Memory.ofBytes 0 bytes) i = bytes[i]? := by
  simpa using Memory.read_ofBytes 0 bytes i

theorem Memory.below_ofBytes (start : Nat) (bytes : List Byte) :
    Memory.below (Memory.ofBytes start bytes) (start + bytes.length) := by
  induction bytes generalizing start with
  | nil => intro cell h; simp [Memory.ofBytes] at h
  | cons b bytes ih =>
    intro cell h
    rcases List.mem_cons.1 h with rfl | h
    · simp
    · have := ih (start + 1) cell h
      simp only [List.length_cons]
      omega

/-- The empty memory is canonical: the buffers after RESET. -/
theorem Memory.wf_nil : Memory.wf [] := List.Pairwise.nil

/-! ## Bytes of a buffer in the state -/

/-- A listed byte is what a buffer reads as. -/
theorem bufferByte_of_read {buf : Buffer} {offset : Nat} {s : State} {b : Byte}
    (h : Memory.read (s.buffer buf) offset = some b) : bufferByte buf offset s = b := by
  simp [bufferByte, h]

/-- A buffer's byte depends on that buffer and the occasion only. -/
theorem bufferByte_congr {buf : Buffer} {s t : State} (offset : Nat) (hb : t.buffer buf = s.buffer buf)
    (hf : t.fresh = s.fresh) : bufferByte buf offset t = bufferByte buf offset s := by
  simp [bufferByte, hb, hf]

theorem bufferByte_memWrite1_txb (s : State) (offset other : Nat) (v : U8) :
    bufferByte .txb other (memWrite1 .txb offset v s) = if other = offset then v else bufferByte .txb other s := by
  simp only [bufferByte, State.buffer_txb, memWrite1_txb_txb, Memory.read_write, memWrite1_txb_fresh]
  by_cases h : other = offset <;> simp only [h, if_true, if_false]

end Sys2Proof.Machine
end

