-- ==== Sys2Proof/Laws/Ops.lean ====
section
/-! SUPPORT. What each shared operation does: ending an operation, the stages of DECODE, CONVERT and PIPE, LOADRX. A proof
cites these instead of unfolding the operations. -/

namespace Sys2Proof.Machine

/-! ## finishOk -/

@[simp] theorem finishOk_rv (s : State) : (finishOk s).rv = s.rv := rfl
@[simp] theorem finishOk_rvcnt (s : State) : (finishOk s).rvcnt = s.rvcnt := rfl
@[simp] theorem finishOk_vel (s : State) : (finishOk s).vel = s.vel := rfl
@[simp] theorem finishOk_velvalid (s : State) : (finishOk s).velvalid = s.velvalid := rfl
@[simp] theorem finishOk_tid (s : State) : (finishOk s).tid = s.tid := rfl
@[simp] theorem finishOk_uid (s : State) : (finishOk s).uid = s.uid := rfl
@[simp] theorem finishOk_addr (s : State) : (finishOk s).addr = s.addr := rfl
@[simp] theorem finishOk_qty (s : State) : (finishOk s).qty = s.qty := rfl
@[simp] theorem finishOk_inflight (s : State) : (finishOk s).inflight = s.inflight := rfl
@[simp] theorem finishOk_txb (s : State) : (finishOk s).txb = s.txb := rfl
@[simp] theorem finishOk_rxb (s : State) : (finishOk s).rxb = s.rxb := rfl
@[simp] theorem finishOk_rxlen (s : State) : (finishOk s).rxlen = s.rxlen := rfl
@[simp] theorem finishOk_fresh (s : State) : (finishOk s).fresh = s.fresh + 1 := rfl
@[simp] theorem finishOk_pending (s : State) : (finishOk s).pending = s.pending := rfl
@[simp] theorem finishOk_hostView (s : State) : (finishOk s).hostView = s.hostView := rfl
@[simp] theorem finishOk_status (s : State) : (finishOk s).status = statusWord kindOk 0#8 := rfl
@[simp] theorem finishOk_kind (s : State) : (finishOk s).kind = 1#3 := by simp [finishOk, kindOk]
@[simp] theorem finishOk_exc (s : State) : (finishOk s).exc = 0#8 := by simp [finishOk]

/-! ## raiseFailure (R105) -/

@[simp] theorem invalidateStage_decode (inPipe : Bool) (s : State) : invalidateStage .decode inPipe s =
    if inPipe then s.invalidateRegisters.invalidateVelocities else s.invalidateRegisters := by
  cases inPipe <;> rfl

@[simp] theorem invalidateStage_count (inPipe : Bool) (s : State) :
    invalidateStage .count inPipe s = s.invalidateVelocities := by
  cases inPipe <;> rfl

@[simp] theorem invalidateStage_convert (inPipe : Bool) (s : State) :
    invalidateStage .convert inPipe s = s.invalidateVelocities := by
  cases inPipe <;> rfl

/-- STATUS reports the failure. -/
theorem raiseFailure_reports (k : Failure) (stage : Stage) (inPipe : Bool) (s : State) :
    (raiseFailure k stage inPipe s).Reports k := by
  constructor <;> simp [raiseFailure]

theorem raiseFailure_status (k : Failure) (stage : Stage) (inPipe : Bool) (s : State) :
    (raiseFailure k stage inPipe s).status = statusWord k.kind k.exc := rfl

/-- What no failure writes (R105: "Nothing else changes"). -/
theorem raiseFailure_frame (k : Failure) (stage : Stage) (inPipe : Bool) (s : State) :
    SameRequest s (raiseFailure k stage inPipe s) ∧ SameReceive s (raiseFailure k stage inPipe s) ∧
      SameHost s (raiseFailure k stage inPipe s) ∧ (raiseFailure k stage inPipe s).fresh = s.fresh + 1 := by
  cases stage <;> cases inPipe <;> simp [raiseFailure, SameRequest, SameReceive, SameHost]

/-- PIPE's failures clear INFLIGHT; the others leave it. -/
theorem raiseFailure_inflight (k : Failure) (stage : Stage) (inPipe : Bool) (s : State) :
    (raiseFailure k stage inPipe s).inflight = if inPipe then false else s.inflight := by
  cases stage <;> cases inPipe <;> simp [raiseFailure]

/-- A failure of the decode tests leaves no valid register; DECODE's leaves VEL as it was. -/
theorem raiseFailure_decode (k : Failure) (inPipe : Bool) (s : State) :
    (raiseFailure k .decode inPipe s).rvcnt = 0#7 ∧
      (if inPipe then (raiseFailure k .decode inPipe s).velvalid = false
        else SameVelocities s (raiseFailure k .decode inPipe s)) := by
  cases inPipe <;> simp [raiseFailure, SameVelocities]

/-- A later failure keeps the registers and leaves no valid velocity. -/
theorem raiseFailure_later (k : Failure) (stage : Stage) (inPipe : Bool) (s : State) (h : stage ≠ .decode) :
    SameRegisters s (raiseFailure k stage inPipe s) ∧ (raiseFailure k stage inPipe s).velvalid = false := by
  cases stage <;> cases inPipe <;> simp_all [raiseFailure, SameRegisters]

/-! ## The decode stage (R64) -/

/-- Everything the tests can answer, one case per row of R53's table. -/
theorem responseTests_cases (len : Nat) (fc bc : U8) :
    (len = 0 ∧ responseTests len fc bc = .error .noResponse) ∨
      (0 < len ∧ len < 9 ∧ responseTests len fc bc = .error .malformedResponse) ∨
      (9 ≤ len ∧ fc.msb = true ∧ responseTests len fc bc = .error (.protocolException bc)) ∨
      (9 ≤ len ∧ fc.msb = false ∧ (fc ≠ 0x03#8 ∨ bc.toNat % 2 = 1 ∨ len < 9 + bc.toNat) ∧
        responseTests len fc bc = .error .malformedResponse) ∨
      (9 + bc.toNat ≤ len ∧ fc = 0x03#8 ∧ bc.toNat % 2 = 0 ∧ responseTests len fc bc = .ok (bc.toNat / 2)) := by
  simp only [responseTests, responseMin, offsetData, fcRead]
  by_cases h0 : len = 0
  · exact .inl ⟨h0, by simp [h0]⟩
  by_cases h9 : len < 9
  · exact .inr (.inl ⟨by omega, h9, by simp [h0, h9]⟩)
  have hge : 9 ≤ len := by omega
  by_cases hm : fc.msb = true
  · exact .inr (.inr (.inl ⟨hge, hm, by simp [h0, h9, hm]⟩))
  have hmf : fc.msb = false := by simpa using hm
  have hm3 : (0x03#8 : U8).msb = false := by decide
  by_cases hf : fc = 0x03#8
  · by_cases hb : bc.toNat % 2 = 1
    · exact .inr (.inr (.inr (.inl ⟨hge, hmf, .inr (.inl hb), by simp [h0, h9, hf, hb, hm3]⟩)))
    · have hbf : bc.toNat % 2 = 0 := by omega
      by_cases hl : len < 9 + bc.toNat
      · exact .inr (.inr (.inr (.inl ⟨hge, hmf, .inr (.inr hl), by simp [h0, h9, hf, hl, hm3]⟩)))
      · exact .inr (.inr (.inr (.inr ⟨by omega, hf, hbf, by simp [hf, hbf, h0, h9, hl, hm3]⟩)))
  · exact .inr (.inr (.inr (.inl ⟨hge, hmf, .inl hf, by simp [h0, h9, hf, hmf]⟩)))

/-- The byte count a response carries at most fits RVCNT. -/
theorem responseTests_le {len : Nat} {fc bc : U8} {n : Nat} (h : responseTests len fc bc = .ok n) : n ≤ 127 := by
  have hb := bc.isLt
  rcases responseTests_cases len fc bc with ⟨_, h'⟩ | ⟨_, _, h'⟩ | ⟨_, _, h'⟩ | ⟨_, _, _, h'⟩ | ⟨_, _, _, h'⟩ <;>
    rw [h'] at h
  · cases h
  · cases h
  · cases h
  · cases h
  · have := Except.ok.inj h
    omega

theorem decodeTests_le {s : State} {n : Nat} (h : decodeTests s = .ok n) : n ≤ 127 := responseTests_le h

/-- The tests read RXLEN and the bytes at offsets 7 and 8 only. -/
theorem decodeTests_congr {s t : State} (hl : t.rxlen = s.rxlen) (h7 : bufferByte .rxb 7 t = bufferByte .rxb 7 s)
    (h8 : bufferByte .rxb 8 t = bufferByte .rxb 8 s) : decodeTests t = decodeTests s := by
  simp only [decodeTests, memRead1, offsetFunctionCode, offsetByteCount, hl, h7, h8]

/-- A successful decode stage wrote the registers and nothing else. -/
theorem decodeStage_ok {s t : State} (h : decodeStage s = .ok t) :
    ∃ n, decodeTests s = .ok n ∧ n ≤ 127 ∧ t = s.setRegisters n (receivedValue s) := by
  simp only [decodeStage] at h
  split at h
  · next n hn => exact ⟨n, hn, decodeTests_le hn, (Except.ok.inj h).symm⟩
  · cases h

theorem decodeStage_error {s : State} {k : Failure} (h : decodeStage s = .error k) : decodeTests s = .error k := by
  simp only [decodeStage] at h
  split at h
  · cases h
  · next k' hk => cases h; exact hk

theorem decodeStage_of_ok {s : State} {n : Nat} (h : decodeTests s = .ok n) :
    decodeStage s = .ok (s.setRegisters n (receivedValue s)) := by
  simp [decodeStage, h]

theorem decodeStage_of_error {s : State} {k : Failure} (h : decodeTests s = .error k) : decodeStage s = .error k := by
  simp [decodeStage, h]

/-- The entries of RV after a decode. -/
theorem decodedRegisters_getElem (n : Nat) (value : Nat → S16) (fresh i : Nat) (hi : i < 127) :
    (decodedRegisters n value fresh)[i] = if i < n then value i else Config.freeWord fresh i := by
  delta decodedRegisters
  rw [Vector.getElem_ofFn]

theorem State.setRegisters_rvcnt_toNat (s : State) {n : Nat} (value : Nat → S16) (h : n ≤ 127) :
    (s.setRegisters n value).rvcnt.toNat = n := by
  simp only [State.setRegisters_rvcnt, BitVec.toNat_ofNat]
  omega

theorem State.setRegisters_getElem (s : State) {n : Nat} (value : Nat → S16) {i : Nat} (h : i < n) (hi : i < 127) :
    (s.setRegisters n value).rv[i] = value i := by
  simp only [State.setRegisters_rv, decodedRegisters_getElem, if_pos h]

/-- Everything DECODE can do. -/
theorem execDecode_cases (s : State) :
    (∃ n, decodeTests s = .ok n ∧ n ≤ 127 ∧ execDecode s = .next (finishOk (s.setRegisters n (receivedValue s)))) ∨
      (∃ k, decodeTests s = .error k ∧ execDecode s = .next (raiseFailure k .decode false s)) := by
  cases h : decodeTests s with
  | ok n => exact .inl ⟨n, rfl, decodeTests_le h, by simp [execDecode, decodeStage_of_ok h]⟩
  | error k => exact .inr ⟨k, rfl, by simp [execDecode, decodeStage_of_error h]⟩

/-! ## The convert stage (R73) -/

theorem convertStage_of_lt {s : State} (h : s.rvcnt.toNat < 12) : convertStage s = .error .invalidRegisterCount := by
  simp [convertStage, valuesConverted, h]

theorem convertStage_of_ge {s : State} (h : 12 ≤ s.rvcnt.toNat) : convertStage s = .ok (s.setVelocities (lane s)) := by
  have hn := Nat.not_lt.2 h
  simp [convertStage, valuesConverted, hn]

/-- Everything CONVERT can do. -/
theorem execConvert_cases (s : State) :
    (12 ≤ s.rvcnt.toNat ∧ execConvert s = .next (finishOk (s.setVelocities (lane s)))) ∨
      (s.rvcnt.toNat < 12 ∧ execConvert s = .next (raiseFailure .invalidRegisterCount .convert false s)) := by
  rcases Nat.lt_or_ge s.rvcnt.toNat 12 with h | h
  · exact .inr ⟨h, by simp [execConvert, convertStage_of_lt h]⟩
  · exact .inl ⟨h, by simp [execConvert, convertStage_of_ge h]⟩

/-! ## PIPE (R89) -/

/-- Everything PIPE's stages can do. -/
theorem pipeStages_cases (s : State) :
    (∃ k, decodeTests s = .error k ∧ pipeStages s = raiseFailure k .decode true s) ∨
      (∃ n d, decodeTests s = .ok n ∧ n ≤ 127 ∧ d = s.setRegisters n (receivedValue s) ∧
        ((n ≠ s.qty.toNat ∧ pipeStages s = raiseFailure .malformedResponse .count true d) ∨
          (n = s.qty.toNat ∧ n < 12 ∧ pipeStages s = raiseFailure .invalidRegisterCount .convert true d) ∨
          (n = s.qty.toNat ∧ 12 ≤ n ∧ pipeStages s = finishOk (d.setVelocities (lane d))))) := by
  cases h : decodeTests s with
  | error k => exact .inl ⟨k, rfl, by simp [pipeStages, decodeStage_of_error h]⟩
  | ok n =>
    have hn := decodeTests_le h
    have hc := s.setRegisters_rvcnt_toNat (receivedValue s) hn
    refine .inr ⟨n, _, rfl, hn, rfl, ?_⟩
    simp only [pipeStages, decodeStage_of_ok h, countMatches, hc, State.setRegisters_qty]
    by_cases hq : n = s.qty.toNat
    · rcases Nat.lt_or_ge n 12 with hlt | hge
      · exact .inr (.inl ⟨hq, hlt, by rw [convertStage_of_lt (by rw [hc]; exact hlt)]; simp [← hq]⟩)
      · exact .inr (.inr ⟨hq, hge, by rw [convertStage_of_ge (by rw [hc]; exact hge)]; simp [← hq]⟩)
    · exact .inl ⟨hq, by simp [hq]⟩

theorem execPipe_of_inflight {s : State} (h : s.inflight = true) : execPipe s = .next (pipeStages s.clearInflight) := by
  simp [execPipe, h]

theorem execPipe_of_idle {s : State} (h : s.inflight = false) : execPipe s = .refused .noRequestInFlight := by
  simp [execPipe, h]

/-! ## LOADRX (R92) -/

theorem loadrx_rxlen_toNat (bytes : List Byte) (s : State) : (loadrx bytes s).rxlen.toNat = min bytes.length 263 := by
  simp only [loadrx, State.tick_rxlen, State.loadReceived_rxlen, Buffer.size_rxb, BitVec.toNat_ofNat]
  omega

theorem loadrx_read (bytes : List Byte) (s : State) (offset : Nat) :
    Memory.read (loadrx bytes s).rxb offset = if offset < 263 then bytes[offset]? else none := by
  simp only [loadrx, State.tick_rxb, State.loadReceived_rxb, Memory.read_ofBytes_zero, Buffer.size_rxb]
  rw [List.getElem?_take]

/-- LOADRX writes RXB and RXLEN and nothing else. -/
theorem loadrx_frame (bytes : List Byte) (s : State) :
    SameRegisters s (loadrx bytes s) ∧ SameVelocities s (loadrx bytes s) ∧ SameRequest s (loadrx bytes s) ∧
      (loadrx bytes s).inflight = s.inflight ∧ (loadrx bytes s).status = s.status ∧ SameHost s (loadrx bytes s) := by
  simp [loadrx, SameRegisters, SameVelocities, SameRequest, SameHost]

/-! ## ENCODE's stores (R62, R72) -/

/-- The stores write TXB only. -/
theorem storeRequest_frame (tid : U16) (uid : U8) (addr qty : U16) (s : State) :
    SameRegisters s (storeRequest tid uid addr qty s) ∧ SameVelocities s (storeRequest tid uid addr qty s) ∧
      SameReceive s (storeRequest tid uid addr qty s) ∧ SameHost s (storeRequest tid uid addr qty s) ∧
      (storeRequest tid uid addr qty s).inflight = s.inflight ∧
      (storeRequest tid uid addr qty s).status = s.status ∧ (storeRequest tid uid addr qty s).fresh = s.fresh := by
  simp [storeRequest, put16be, SameRegisters, SameVelocities, SameReceive, SameHost]

/-- Every byte the stores leave: the twelve of R47, and the old ones elsewhere. -/
theorem storeRequest_read (tid : U16) (uid : U8) (addr qty : U16) (s : State) (offset : Nat) :
    Memory.read (storeRequest tid uid addr qty s).txb offset =
      if h : offset < 12 then some ((requestBytes tid uid addr qty)[offset]'(by simpa using h))
      else Memory.read s.txb offset := by
  simp only [storeRequest, put16be, memWrite2_txb_txb, memWrite1_txb_txb, Memory.read_write]
  by_cases h : offset < 12
  · rw [dif_pos h]
    interval_cases offset <;> rfl
  · rw [dif_neg h]
    have hne : ∀ k, k < 12 → offset ≠ k := fun k hk => by omega
    simp [hne]

theorem storeRequest_wf (tid : U16) (uid : U8) (addr qty : U16) (s : State) (h : Memory.wf s.txb) :
    Memory.wf (storeRequest tid uid addr qty s).txb := by
  simp only [storeRequest, put16be, memWrite2_txb_txb, memWrite1_txb_txb]
  repeat apply Memory.wf_write
  exact h

theorem storeRequest_below (tid : U16) (uid : U8) (addr qty : U16) (s : State) (h : Memory.below s.txb 12) :
    Memory.below (storeRequest tid uid addr qty s).txb 12 := by
  simp only [storeRequest, put16be, memWrite2_txb_txb, memWrite1_txb_txb]
  repeat refine Memory.below_write _ ?_ (by decide)
  exact h

/-- A buffer whose twelve bytes are listed is what the host takes. -/
theorem txBytes_of_read {s : State} {bytes : List Byte} (hl : bytes.length = 12)
    (h : ∀ offset (ho : offset < 12), Memory.read s.txb offset = some (bytes[offset]'(by omega))) :
    txBytes s = bytes := by
  apply List.ext_getElem
  · simp [txBytes, hl]
  · intro i h1 h2
    have hi : i < 12 := by simpa [txBytes] using h1
    simp only [txBytes, List.getElem_map, List.getElem_range]
    exact bufferByte_of_read (by simpa using h i hi)

/-- After ENCODE the host takes the twelve bytes of R47. -/
theorem txBytes_execEncode (tid : U16) (uid : U8) (addr qty : U16) (s : State) :
    txBytes (finishOk ((storeRequest tid uid addr qty s).latchRequest tid uid addr qty)) =
      requestBytes tid uid addr qty := by
  apply txBytes_of_read rfl
  intro offset ho
  simp only [finishOk_txb, State.latchRequest_txb, storeRequest_read, dif_pos ho]

end Sys2Proof.Machine
end

