-- ==== Sys2Proof/Laws/PerInstr.lean ====
section
/-! SUPPORT. A statement for every instruction: how many bytes its encoding takes (30_encoding.md R46, R59). -/

namespace Sys2Proof.Laws.FormatLength

/-- How many bytes a code has: a command word is eight. -/
def codeLength : Code → Nat
  | .command _ => 8
  | .received bytes => bytes.length
  | .request bytes => bytes.length

/-- R46's lengths: 12 for REQ, 9 + byteCount for RSP and 9 for EXC with the bytes after the frame (R56); 8 for a command. -/
def formatLength : Instr → Nat
  | .encode _ _ _ _ => 8
  | .decode => 8
  | .convert => 8
  | .pipe => 8
  | .cmdReserved _ => 8
  | .frameReq _ _ _ _ => 12
  | .frameRsp _ values trailing => 9 + 2 * values.length + trailing.length
  | .frameExc _ _ _ trailing => 9 + trailing.length
  | .frameIllegal bytes => bytes.length
  | .frameNone => 0

/-- The encoding of an instruction has the length of its format. -/
def Statement (i : Instr) : Prop := codeLength (Sys2Proof.encode i) = formatLength i

theorem encode (tid : U16) (uid : U8) (addr qty : U16) : Statement (.encode tid uid addr qty) := rfl
theorem decode : Statement .decode := rfl
theorem convert : Statement .convert := rfl
theorem pipe : Statement .pipe := rfl
theorem cmdReserved (word : CommandWord) : Statement (.cmdReserved word) := rfl
theorem frameReq (tid : U16) (uid : U8) (addr qty : U16) : Statement (.frameReq tid uid addr qty) := rfl
theorem frameRsp (m : Mbap) (values : List S16) (trailing : List Byte) : Statement (.frameRsp m values trailing) :=
  responseBytes_length m values trailing
theorem frameExc (m : Mbap) (functionLow : BitVec 7) (code : U8) (trailing : List Byte) :
    Statement (.frameExc m functionLow code trailing) := exceptionBytes_length m functionLow code trailing
theorem frameIllegal (bytes : List Byte) : Statement (.frameIllegal bytes) := rfl
theorem frameNone : Statement .frameNone := rfl

end Sys2Proof.Laws.FormatLength
end

