-- ==== Sys2Proof/Laws/Step.lean ====
section
/-! SUPPORT. What a step can do: the cases of a host action, by the instruction it carries. -/

namespace Sys2Proof.Machine

theorem step_of_nil {s : State} (h : s.pending = []) : step s = .next s := by
  simp [step, h]

theorem step_of_cons {s : State} {a : HostAction} {rest : List HostAction} (h : s.pending = a :: rest) :
    step s = perform a (s.setPending rest) := by
  simp [step, h]

@[simp] theorem perform_command (word : CommandWord) (s : State) :
    perform (.command word) s = exec (decodeCommand word) s := rfl

@[simp] theorem perform_loadrx (bytes : List Byte) (s : State) :
    perform (.loadrx bytes) s = exec (decodeReceived bytes) s := rfl

@[simp] theorem perform_reset (s : State) : perform .reset s = .next (resetBlock s) := rfl

@[simp] theorem perform_read (e : Element) (s : State) : perform (.read e) s = readAction e s := rfl

/-- A send hands the host TXB's twelve bytes, whether or not they are a request frame. -/
theorem perform_send (s : State) :
    (∃ tid uid addr qty, decodeRequest (txBytes s) = .ok (.frameReq tid uid addr qty) ∧
        perform .send s = exec (.frameReq tid uid addr qty) s) ∨
      (∃ r, decodeRequest (txBytes s) = .error r ∧ perform .send s = .next (sendUnspecified s)) := by
  cases h : decodeRequest (txBytes s) with
  | error r => exact .inr ⟨r, rfl, by simp [perform, runCode, decodeCode, h]⟩
  | ok i =>
    have hi : ∃ tid uid addr qty, i = .frameReq tid uid addr qty := by
      simp only [decodeRequest] at h
      split at h
      · split at h
        · exact ⟨_, _, _, _, (Except.ok.inj h).symm⟩
        · cases h
      · cases h
    obtain ⟨tid, uid, addr, qty, rfl⟩ := hi
    exact .inl ⟨tid, uid, addr, qty, rfl, by simp [perform, runCode, decodeCode, h]⟩

/-- A received sequence decodes to one of the four classes of R53. -/
theorem decodeReceived_class (bytes : List Byte) :
    decodeReceived bytes = .frameNone ∨ decodeReceived bytes = .frameIllegal bytes ∨
      (∃ m low code trailing, decodeReceived bytes = .frameExc m low code trailing) ∨
      (∃ m values trailing, decodeReceived bytes = .frameRsp m values trailing) := by
  unfold decodeReceived
  split
  · exact .inl rfl
  · split
    · exact .inr (.inr (.inl ⟨_, _, _, _, rfl⟩))
    · split
      · exact .inr (.inl rfl)
      · split
        · exact .inr (.inl rfl)
        · split
          · exact .inr (.inl rfl)
          · exact .inr (.inr (.inr ⟨_, _, _, rfl⟩))
  · exact .inr (.inl rfl)

/-- A command word decodes to one of the first five instructions. -/
theorem decodeCommand_class (word : CommandWord) :
    (∃ tid uid addr qty, decodeCommand word = .encode tid uid addr qty) ∨ decodeCommand word = .decode ∨
      decodeCommand word = .convert ∨ decodeCommand word = .pipe ∨ decodeCommand word = .cmdReserved word := by
  unfold decodeCommand
  split
  · exact .inl ⟨_, _, _, _, rfl⟩
  · split
    · exact .inr (.inl rfl)
    · split
      · exact .inr (.inr (.inl rfl))
      · split
        · exact .inr (.inr (.inr (.inl rfl)))
        · exact .inr (.inr (.inr (.inr rfl)))

/-- RESET leaves the elements of R117 at their values, both buffers unlisted, and the host's side alone. -/
theorem resetBlock_spec (s : State) :
    (resetBlock s).AtReset ∧ (resetBlock s).txb = [] ∧ (resetBlock s).rxb = [] ∧ SameHost s (resetBlock s) ∧
      (resetBlock s).fresh = s.fresh + 1 :=
  ⟨⟨rfl, rfl, rfl, rfl, rfl⟩, rfl, rfl, ⟨rfl, rfl⟩, rfl⟩

/-- A host read hands over a value and changes no element, or faults on an offset the buffer does not have. -/
theorem readAction_cases (e : Element) (s : State) :
    (∃ v, readElement e s = .ok v ∧ readAction e s = .next (s.handOver v).tick) ∨
      (∃ r, readElement e s = .error r ∧ readAction e s = .fault r) := by
  cases h : readElement e s with
  | ok v => exact .inl ⟨v, rfl, by simp [readAction, h]⟩
  | error r => exact .inr ⟨r, rfl, by simp [readAction, h]⟩

/-- Everything a step that completes can be: idle, a command, an arrival, RESET, or a host read or send (which only hand the
host a value). -/
theorem step_cases {s t : State} (h : step s = .next t) :
    (s.pending = [] ∧ t = s) ∨
      ∃ a rest, s.pending = a :: rest ∧
        ((∃ word, a = .command word ∧ exec (decodeCommand word) (s.setPending rest) = .next t) ∨
          (∃ bytes, a = .loadrx bytes ∧ exec (decodeReceived bytes) (s.setPending rest) = .next t) ∨
          (a = .reset ∧ t = resetBlock (s.setPending rest)) ∨
          ((a = .send ∨ ∃ e, a = .read e) ∧ ∃ v, t = ((s.setPending rest).handOver v).tick)) := by
  cases hp : s.pending with
  | nil =>
    rw [step_of_nil hp] at h
    injection h with h
    exact .inl ⟨rfl, h.symm⟩
  | cons a rest =>
    rw [step_of_cons hp] at h
    refine .inr ⟨a, rest, rfl, ?_⟩
    cases a with
    | reset =>
      injection h with h
      exact .inr (.inr (.inl ⟨rfl, h.symm⟩))
    | command word => exact .inl ⟨word, rfl, h⟩
    | loadrx bytes => exact .inr (.inl ⟨bytes, rfl, h⟩)
    | send =>
      refine .inr (.inr (.inr ⟨.inl rfl, ?_⟩))
      rcases perform_send (s.setPending rest) with ⟨tid, uid, addr, qty, _, e⟩ | ⟨r, _, e⟩ <;> rw [e] at h
      · change Host.Outcome.next _ = _ at h
        injection h with h
        exact ⟨_, h.symm⟩
      · injection h with h
        exact ⟨_, h.symm⟩
    | read e =>
      refine .inr (.inr (.inr ⟨.inr ⟨e, rfl⟩, ?_⟩))
      rw [perform_read] at h
      rcases readAction_cases e (s.setPending rest) with ⟨v, _, e'⟩ | ⟨r, _, e'⟩ <;> rw [e'] at h
      · injection h with h
        exact ⟨v, h.symm⟩
      · cases h

end Sys2Proof.Machine
end

