-- ==== Sys2Proof/Tests/Slice0.lean ====
section
/-! SUPPORT. Tests: the well-formedness smoke tests, words decoded as spec/ writes them, one-step tests against
95_test_vectors.md (its names: D-5, P-1, …), and for every obligation with hypotheses a concrete case that meets them. -/

namespace Sys2Proof.Tests

open Sys2Proof Sys2Proof.Machine

/-! ## Helpers -/

/-- Bytes from their numbers. -/
def bytesOf (numbers : List Nat) : List Byte := numbers.map (BitVec.ofNat 8)

/-- `exec` answers a next state. -/
def completes (i : Instr) (s : State) : Bool :=
  match exec i s with
  | .next _ => true
  | .fault _ => false
  | .refused _ => false

/-- The next state, where there is one. -/
def after (i : Instr) (s : State) : State :=
  match exec i s with
  | .next t => t
  | .fault _ => s
  | .refused _ => s

theorem exec_after {i : Instr} {s : State} (h : completes i s = true) : exec i s = .next (after i s) := by
  unfold completes at h
  unfold after
  split at h <;> simp_all

/-- `step` answers a next state. -/
def steps (s : State) : Bool :=
  match step s with
  | .next _ => true
  | .fault _ => false
  | .refused _ => false

/-- The state one step on, where there is one. -/
def stepped (s : State) : State :=
  match step s with
  | .next t => t
  | .fault _ => s
  | .refused _ => s

theorem step_stepped {s : State} (h : steps s = true) : step s = .next (stepped s) := by
  unfold steps at h
  unfold stepped
  split at h <;> simp_all

/-- RESET and LOADRX. -/
def received (numbers : List Nat) : State := loadrx (bytesOf numbers) State.reset

/-- RESET, `ENCODE 1, 1, 0, qty`, LOADRX. -/
def exchange (qty : U16) (numbers : List Nat) : State :=
  loadrx (bytesOf numbers) (after (.encode 1#16 1#8 0#16 qty) State.reset)

/-- Twelve values and then `more`: a response with `count` values in all (section 2.5's R12 when count = 12). -/
def response (lengthLow count : Nat) (more : List Nat) : List Nat :=
  [0x00, 0x01, 0x00, 0x00, 0x00, lengthLow, 0x01, 0x03, 2 * count] ++
    [0x00, 0x00, 0xFE, 0x0C, 0x00, 0x02, 0x01, 0xF4, 0x00, 0x01, 0x00, 0xFA, 0x00, 0x00, 0x00, 0x00, 0xFF, 0xFF,
      0xFF, 0x06, 0x00, 0x03] ++ more

/-- Section 2.5's `R12`. -/
def r12 : List Nat := response 0x1B 12 [0x00, 0x00]

/-- The 35-byte response of V-5. -/
def r13 : List Nat := response 0x1D 13 [0x00, 0x00, 0x00, 0x63]

/-- The 31-byte response of V-3. -/
def r11 : List Nat := response 0x19 11 []

/-- D-25. -/
def d25 : List Nat := [0x00, 0x01, 0x00, 0x00, 0x00, 0x07, 0x01, 0x03, 0x04, 0xFE, 0x0C, 0x00, 0x02]

/-- D-27: D-25 with a foreign header. -/
def d27 : List Nat := [0xFF, 0xFF, 0x12, 0x34, 0x00, 0x00, 0x99, 0x03, 0x04, 0xFE, 0x0C, 0x00, 0x02]

/-- D-30's 263 bytes: 127 values 257 i + 1. -/
def d30 : List Nat :=
  [0x00, 0x09, 0x00, 0x00, 0x01, 0x01, 0x01, 0x03, 0xFE] ++ (List.range 127).flatMap (fun i => [i, i + 1])

/-- The header `00 01 00 00 00 03 01`. -/
def header3 : Mbap := ⟨1#16, 0#16, 3#16, 1#8⟩

/-! ## Well-formedness: one ill-formed term for each check -/

theorem test_wf_refuses_a_reserved_word_that_is_a_command :
    (Instr.cmdReserved 0x0000000000000002#64).wf = false ∧ (Instr.cmdReserved 0x000C000000010101#64).wf = false ∧
      (Instr.cmdReserved 0x0000000000000009#64).wf = true ∧ (Instr.cmdReserved 0x000C000000010104#64).wf = true := by
  decide

theorem test_wf_refuses_128_values :
    (Instr.frameRsp header3 (List.replicate 128 0#16) []).wf = false ∧
      (Instr.frameRsp header3 (List.replicate 127 0#16) []).wf = true := by
  decide +kernel

theorem test_wf_refuses_illegal_bytes_that_are_legal :
    (Instr.frameIllegal []).wf = false ∧ (Instr.frameIllegal (bytesOf d25)).wf = false ∧
      (Instr.frameIllegal (bytesOf [0, 1, 0, 0, 0, 3, 1, 0x83, 2])).wf = false ∧
      (Instr.frameIllegal (bytesOf [0, 1, 0, 0, 0, 3, 1, 0x83])).wf = true := by
  decide

/-! ## Decoding: words written out from the encodings -/

/-- E-1, E-3, E-6 (section 2.1) and R59's rows. -/
theorem test_decode_commands :
    decodeCommand 0x000C000000010101#64 = .encode 1#16 1#8 0#16 12#16 ∧
      decodeCommand 0xFFFFFFFFFFFFFF01#64 = .encode 0xFFFF#16 0xFF#8 0xFFFF#16 0xFFFF#16 ∧
      decodeCommand 0x007E9C400007FF01#64 = .encode 7#16 255#8 40000#16 126#16 ∧
      decodeCommand 0x0000000000000002#64 = .decode ∧ decodeCommand 0x0000000000000003#64 = .convert ∧
      decodeCommand 0x0000000000000004#64 = .pipe := by
  decide

/-- Section 2.5's list of refused words. -/
theorem test_decode_reserved_commands :
    decodeCommand 0x0000000000000000#64 = .cmdReserved 0x0000000000000000#64 ∧
      decodeCommand 0x0000000000000005#64 = .cmdReserved 0x0000000000000005#64 ∧
      decodeCommand 0x0000000000000006#64 = .cmdReserved 0x0000000000000006#64 ∧
      decodeCommand 0x0000000000000007#64 = .cmdReserved 0x0000000000000007#64 ∧
      decodeCommand 0x0000000000000009#64 = .cmdReserved 0x0000000000000009#64 ∧
      decodeCommand 0x0000000000000102#64 = .cmdReserved 0x0000000000000102#64 ∧
      decodeCommand 0x000C000000010104#64 = .cmdReserved 0x000C000000010104#64 := by
  decide

/-- R47 with E-8's operands; R51: another function code or length is no request. -/
theorem test_decode_request :
    decodeCode (.request (bytesOf [1, 2, 0, 0, 0, 6, 2, 3, 2, 1, 0, 1])) = .ok (.frameReq 258#16 2#8 513#16 1#16) ∧
      decodeCode (.request (bytesOf [1, 2, 0, 0, 0, 6, 2, 4, 2, 1, 0, 1])) = .error .requestConstants ∧
      decodeCode (.request (bytesOf [1, 2, 0, 0, 0, 6, 2, 3, 2, 1, 0])) = .error .requestLength := by
  decide

/-- R48 by D-26 (trailing bytes) and D-23 (byteCount 0). -/
theorem test_decode_response :
    decodeReceived (bytesOf (d25 ++ [0xDE, 0xAD, 0xBE, 0xEF])) =
        .frameRsp ⟨1#16, 0#16, 7#16, 1#8⟩ [BitVec.ofInt 16 (-500), 2#16] (bytesOf [0xDE, 0xAD, 0xBE, 0xEF]) ∧
      decodeReceived (bytesOf [0, 1, 0, 0, 0, 3, 1, 3, 0]) = .frameRsp header3 [] [] := by
  decide

/-- R49 by D-5, D-10, D-11 and D-12. -/
theorem test_decode_exception :
    decodeReceived (bytesOf [0, 1, 0, 0, 0, 3, 1, 0x83, 2]) = .frameExc header3 3#7 2#8 [] ∧
      decodeReceived (bytesOf [0, 1, 0, 0, 0, 3, 1, 0xFF, 0x0B]) = .frameExc header3 127#7 11#8 [] ∧
      decodeReceived (bytesOf [0, 1, 0, 0, 0, 3, 1, 0x80, 7]) = .frameExc header3 0#7 7#8 [] ∧
      decodeReceived (bytesOf [0, 1, 0, 0, 0, 3, 1, 0x83, 2, 0xAA, 0xBB]) =
        .frameExc header3 3#7 2#8 (bytesOf [0xAA, 0xBB]) := by
  decide

/-- R53's other tests by D-2, D-3, D-15, D-19 and D-22; the empty sequence. -/
theorem test_decode_illegal :
    decodeReceived [0#8] = .frameIllegal [0#8] ∧
      decodeReceived (bytesOf [0, 1, 0, 0, 0, 3, 1, 0x83]) = .frameIllegal (bytesOf [0, 1, 0, 0, 0, 3, 1, 0x83]) ∧
      decodeReceived (bytesOf [0, 1, 0, 0, 0, 5, 1, 0x7F, 2, 0, 1]) =
        .frameIllegal (bytesOf [0, 1, 0, 0, 0, 5, 1, 0x7F, 2, 0, 1]) ∧
      decodeReceived (bytesOf [0, 1, 0, 0, 0, 4, 1, 3, 1, 0]) = .frameIllegal (bytesOf [0, 1, 0, 0, 0, 4, 1, 3, 1, 0]) ∧
      decodeReceived (bytesOf [0, 1, 0, 0, 0, 5, 1, 3, 2]) = .frameIllegal (bytesOf [0, 1, 0, 0, 0, 5, 1, 3, 2]) ∧
      decodeReceived [] = .frameNone := by
  decide

/-- The opcode table's numbering: each row's match word (spec/opcode_table.json). -/
theorem test_decode_table_words :
    decodeTableWord 8 0x01 = some (.encode 0#16 0#8 0#16 0#16) ∧ decodeTableWord 64 0x02 = some .decode ∧
      decodeTableWord 64 0x03 = some .convert ∧ decodeTableWord 64 0x04 = some .pipe ∧
      decodeTableWord 96 0x000000000006000300000000 = some (.frameReq 0#16 0#8 0#16 0#16) ∧
      decodeTableWord 16 0x0300 = some (.frameRsp ⟨0#16, 0#16, 0#16, 0#8⟩ [] []) ∧
      decodeTableWord 16 0x8000 = some (.frameExc ⟨0#16, 0#16, 0#16, 0#8⟩ 0#7 0#8 []) ∧
      decodeTableWord 0 0 = some .frameNone := by
  decide

/-- A placed table word is the next step's instruction. -/
theorem test_placed_word_runs :
    (stepped (State.reset.withFetchWord 64 0x000C000000010101)).qty = 12#16 ∧
      (stepped (State.reset.withFetchWord 64 0x02)).status = 0x0002#16 ∧
      (stepped (State.reset.withFetchWord 16 0x8300)).rxlen = 9#9 := by
  decide

/-! ## One step each -/

/-- E-4: high byte first in every 16-bit field. -/
theorem test_encode_bytes :
    txBytes (after (.encode 0x1234#16 0x11#8 0x006B#16 3#16) State.reset) =
      bytesOf [0x12, 0x34, 0, 0, 0, 6, 0x11, 3, 0, 0x6B, 0, 3] := by
  decide

/-- E-6: quantity 126 is encoded all the same (R63). -/
theorem test_encode_latches :
    (let t := after (.encode 7#16 255#8 40000#16 126#16) State.reset
     t.tid = 7#16 ∧ t.uid = 255#8 ∧ t.addr = 40000#16 ∧ t.qty = 126#16 ∧ t.inflight = true ∧ t.status = 0x0001#16) := by
  decide

/-- D-28: the extreme values; D-30: the greatest response. -/
theorem test_decode_values :
    (let t := after .decode (received [0, 5, 0, 0, 0, 0x0B, 1, 3, 8, 0x80, 0, 0x7F, 0xFF, 0xFF, 0xFF, 0, 0])
     t.rvcnt = 4#7 ∧ t.rv[0].toInt = -32768 ∧ t.rv[1].toInt = 32767 ∧ t.rv[2].toInt = -1 ∧ t.rv[3].toInt = 0) ∧
    (let t := after .decode (received d30)
     t.rvcnt = 127#7 ∧ t.rv[126].toInt = 32383 ∧ t.status = 0x0001#16) := by
  decide +kernel

/-- D-3, D-5, D-6, D-20, D-21, D-32: the order of the tests and their boundaries. -/
theorem test_decode_failures :
    (after .decode (received [0, 1, 0, 0, 0, 3, 1, 0x83])).status = 0x0003#16 ∧
      (after .decode (received [0, 1, 0, 0, 0, 3, 1, 0x83, 2])).status = 0x0204#16 ∧
      (after .decode (received [0, 1, 0, 0, 0, 3, 1, 0x83, 1])).status = 0x0104#16 ∧
      (after .decode (received ([0, 1, 0, 0, 1, 2, 1, 3, 0xFF] ++ List.replicate 255 0))).status = 0x0003#16 ∧
      (after .decode (received (d25.take 12))).status = 0x0003#16 ∧
      (after .decode (received (d30.take 262))).status = 0x0003#16 := by
  decide +kernel

/-- V-3 and V-4: eleven values, twelve values. -/
theorem test_convert :
    (let t := after .convert (after .decode (received r11))
     t.status = 0x0005#16 ∧ t.velvalid = false ∧ t.rvcnt = 11#7) ∧
    (let t := after .convert (after .decode (received r12))
     t.status = 0x0001#16 ∧ t.velvalid = true ∧ t.vel[0] = 0xBFE0000000000000#64 ∧ t.vel[1] = 0x4004000000000000#64 ∧
       t.vel[4] = 0xBFF4000000000000#64 ∧ t.vel[5] = 0x4008000000000000#64) := by
  decide +kernel

/-- C-18 (division, no multiplication), C-32 and C-33 (two roundings), C-34, C-38 (+0), C-41. -/
theorem test_pairconv :
    pairconv 0#16 9#16 = 0x3F826E978D4FDF3B#64 ∧
      pairconv (BitVec.ofInt 16 (-1)) 999#16 = 0xBF50624DD2F1AA00#64 ∧
      pairconv 1#16 (BitVec.ofInt 16 (-32767)) = 0xC03FC45A1CAC0832#64 ∧
      pairconv (BitVec.ofInt 16 (-32)) 32001#16 = 0x3F50624DD2F18000#64 ∧
      pairconv 32#16 (BitVec.ofInt 16 (-32000)) = 0#64 ∧
      pairconv (BitVec.ofInt 16 (-32768)) (BitVec.ofInt 16 (-32768)) = 0xC0E004189374BC6A#64 := by
  decide +kernel

/-- P-1: the source's end-to-end scenario. -/
theorem test_pipe_succeeds :
    (let t := after .pipe (exchange 12#16 r12)
     t.status = 0x0001#16 ∧ t.rvcnt = 12#7 ∧ t.velvalid = true ∧ t.inflight = false ∧
       t.vel[0] = 0xBFE0000000000000#64 ∧ t.vel[3] = 0#64 ∧ t.vel[5] = 0x4008000000000000#64) := by
  decide +kernel

/-- P-3, P-4, P-5 and P-8: each stage's failure. -/
theorem test_pipe_failures :
    (after .pipe (exchange 12#16 [0, 1, 0, 0, 0, 3, 1, 0x83, 2])).status = 0x0204#16 ∧
      (let t := after .pipe (exchange 12#16 d25)
       t.status = 0x0003#16 ∧ t.rvcnt = 2#7 ∧ t.rv[0].toInt = -500 ∧ t.velvalid = false ∧ t.inflight = false) ∧
      (after .pipe (exchange 12#16 r13)).status = 0x0003#16 ∧
      (after .pipe (exchange 11#16 r11)).status = 0x0005#16 := by
  decide +kernel

/-- Section 2.5's refusals. -/
theorem test_refusals :
    exec .pipe State.reset = .refused .noRequestInFlight ∧
      exec .pipe (received r12) = .refused .noRequestInFlight ∧
      exec (decodeCommand 0x0000000000000102#64) State.reset = .refused (.reservedCommand 0x0000000000000102#64) :=
  ⟨rfl, rfl, rfl⟩

/-- R94 step 2: what goes out is R47's frame. -/
theorem test_frame_req :
    (after (.frameReq 1#16 1#8 0#16 12#16) State.reset).hostView =
      some (.frame (bytesOf [0, 1, 0, 0, 0, 6, 1, 3, 0, 0, 0, 0x0C])) := by
  decide

/-- R92: 300 bytes are cut to 263 (D-31). -/
theorem test_frame_rsp_cut :
    (let t := after (decodeReceived (bytesOf (d30 ++ List.replicate 37 0xEE))) State.reset
     t.rxlen = 263#9 ∧ Memory.read t.rxb 262 = some 0x7F#8 ∧ Memory.read t.rxb 263 = none) := by
  decide +kernel

/-- D-9's bytes arrive; STATUS is not written (R92). -/
theorem test_frame_exc :
    (let t := after (.frameExc header3 1#7 4#8 []) (after (.encode 1#16 1#8 0#16 12#16) State.reset)
     t.rxlen = 9#9 ∧ Memory.read t.rxb 7 = some 0x81#8 ∧ Memory.read t.rxb 8 = some 4#8 ∧ t.status = 0x0001#16) := by
  decide

/-- D-2's byte arrives, then `LOADRX <none>`: nothing is left of it. -/
theorem test_frame_illegal_and_none :
    (let t := after (.frameIllegal [0x00#8]) State.reset
     t.rxlen = 1#9 ∧ Memory.read t.rxb 0 = some 0#8 ∧ (after .frameNone t).rxlen = 0#9 ∧ (after .frameNone t).rxb = []) := by
  decide

/-- R61: the pseudo-operations expand to the words of E-1 and of PIPE (program 1). -/
theorem test_pseudo_operations :
    readVel 1#16 = [.command 0x000C000000010101#64] ∧
      cycle 1#16 1#8 0#16 12#16 (bytesOf r12) =
        [.command 0x000C000000010101#64, .loadrx (bytesOf r12), .command 0x0000000000000004#64] := by
  decide

/-! ## Witnesses: what an obligation assumes can be met -/

/-- `DecodeOfEncode`: an instruction of each constructor is well formed. -/
theorem witness_DecodeOfEncode :
    (Instr.encode 1#16 1#8 0#16 12#16).wf = true ∧ Instr.decode.wf = true ∧ Instr.convert.wf = true ∧
      Instr.pipe.wf = true ∧ (Instr.cmdReserved 0#64).wf = true ∧ (Instr.frameReq 1#16 1#8 0#16 12#16).wf = true ∧
      (Instr.frameRsp header3 [5#16] [7#8]).wf = true ∧ (Instr.frameExc header3 3#7 2#8 []).wf = true ∧
      (Instr.frameIllegal [0#8]).wf = true ∧ Instr.frameNone.wf = true := by
  decide

/-- `EncodeOfDecode`: a code of each kind decodes. -/
theorem witness_EncodeOfDecode :
    decodeCode (.command 2#64) = .ok .decode ∧ decodeCode (.received [0#8]) = .ok (.frameIllegal [0#8]) ∧
      decodeCode (.request (bytesOf [1, 2, 0, 0, 0, 6, 2, 3, 2, 1, 0, 1])) =
        .ok (.frameReq 258#16 2#8 513#16 1#16) := by
  decide

/-- `RequestOperandsReadBack`: two ENCODEs with the same bytes. -/
theorem witness_RequestOperandsReadBack :
    completes (.encode 1#16 1#8 0#16 12#16) State.reset = true ∧
      completes (.encode 1#16 1#8 0#16 12#16) (received d25) = true ∧
      txBytes (after (.encode 1#16 1#8 0#16 12#16) State.reset) =
        txBytes (after (.encode 1#16 1#8 0#16 12#16) (received d25)) := by
  decide +kernel

/-- `SendAfterEncode`: an ENCODE with a send to come. -/
theorem witness_SendAfterEncode :
    completes (.encode 1#16 1#8 0#16 12#16) (State.reset.setPending [.send, .command 2#64]) = true ∧
      (State.reset.setPending [.send, .command 2#64]).pending = .send :: [.command 2#64] := by
  decide

/-- `DecodeResult`: each clause is met, at the boundaries of RXLEN (0, 8, 9), function code (0x7F, 0x80) and byteCount. -/
theorem witness_DecodeResult_clauses :
    (received []).rxlen.toNat = 0 ∧ (received (d25.take 8)).rxlen.toNat = 8 ∧
      ((received [0, 1, 0, 0, 0, 3, 1, 0x80, 7]).rxlen.toNat = 9 ∧
        (bufferByte .rxb 7 (received [0, 1, 0, 0, 0, 3, 1, 0x80, 7])).toNat = 0x80) ∧
      ((received [0, 1, 0, 0, 0, 3, 1, 0x7F, 7]).rxlen.toNat = 9 ∧
        (bufferByte .rxb 7 (received [0, 1, 0, 0, 0, 3, 1, 0x7F, 7])).toNat = 0x7F) ∧
      (bufferByte .rxb 7 (received [0, 1, 0, 0, 0, 4, 1, 3, 1, 0]) = 3#8 ∧
        (bufferByte .rxb 8 (received [0, 1, 0, 0, 0, 4, 1, 3, 1, 0])).toNat % 2 = 1) ∧
      ((received (d25.take 12)).rxlen.toNat + 1 = 9 + (bufferByte .rxb 8 (received (d25.take 12))).toNat) ∧
      ((received d25).rxlen.toNat = 9 + (bufferByte .rxb 8 (received d25)).toNat) ∧
      ((received d30).rxlen.toNat = 263 ∧ (bufferByte .rxb 8 (received d30)).toNat / 2 = 127) := by
  decide +kernel

/-- `DecodedValuesSigned`: D-25, whose first value is negative. -/
theorem witness_DecodedValuesSigned :
    exec .decode (received d25) = .next (after .decode (received d25)) ∧
      (after .decode (received d25)).kind = 1#3 ∧ 1 < (after .decode (received d25)).rvcnt.toNat ∧
      wireInt (bufferByte .rxb 9 (received d25)) (bufferByte .rxb 10 (received d25)) = -500 :=
  ⟨exec_after (by decide +kernel), by decide +kernel, by decide +kernel, by decide +kernel⟩

/-- `DecodeReadsFromOffsetSeven`: D-25 and D-27, alike from offset 7 on. -/
theorem witness_DecodeReadsFromOffsetSeven :
    (received d27).rxlen = (received d25).rxlen ∧
      (∀ offset, 7 ≤ offset → offset < (received d25).rxlen.toNat →
        bufferByte .rxb offset (received d27) = bufferByte .rxb offset (received d25)) ∧
      bufferByte .rxb 0 (received d27) ≠ bufferByte .rxb 0 (received d25) ∧
      completes .decode (received d25) = true ∧ completes .decode (received d27) = true := by
  refine ⟨by decide +kernel, fun offset h7 h => ?_, by decide +kernel, by decide +kernel, by decide +kernel⟩
  have h13 : (received d25).rxlen.toNat = 13 := by decide +kernel
  have hall : ∀ k : Fin 13, 7 ≤ k.val →
      bufferByte .rxb k.val (received d27) = bufferByte .rxb k.val (received d25) := by decide +kernel
  exact hall ⟨offset, by omega⟩ h7

/-- `ResponseRoundTrip`: no values, and 127. -/
theorem witness_ResponseRoundTrip :
    ([] : List S16).length ≤ 127 ∧ (List.replicate 127 1#16).length ≤ 127 := by
  simp

/-- `ReceivedClassDecidesOutcome`: the four classes. -/
theorem witness_ReceivedClassDecidesOutcome_clauses :
    decodeReceived [] = .frameNone ∧ decodeReceived (bytesOf (d25.take 8)) = .frameIllegal (bytesOf (d25.take 8)) ∧
      decodeReceived (bytesOf [0, 1, 0, 0, 0, 3, 1, 0x83, 2]) = .frameExc header3 3#7 2#8 [] ∧
      decodeReceived (bytesOf [0, 1, 0, 0, 0, 3, 1, 3, 0]) = .frameRsp header3 [] [] := by
  decide

/-- `ConvertResult`: eleven values and twelve. -/
theorem witness_ConvertResult_clauses :
    (after .decode (received r11)).rvcnt.toNat = 11 ∧ (after .decode (received r12)).rvcnt.toNat = 12 := by
  decide +kernel

/-- `LanesIndependent`: V-4 and the same with another last value agree in lane 0, first and last lane in range. -/
theorem witness_LanesIndependent :
    (let s := after .decode (received r12)
     let s' := after .decode (received (response 0x1B 12 [0x00, 0x07]))
     12 ≤ s.rvcnt.toNat ∧ 12 ≤ s'.rvcnt.toNat ∧ s'.rv[0] = s.rv[0] ∧ s'.rv[1] = s.rv[1] ∧ s'.rv[11] ≠ s.rv[11] ∧
       completes .convert s = true ∧ completes .convert s' = true) := by
  decide +kernel

/-- `RoundIsNearestEven`: 2^53 + 1 lies midway between two floats; the other one is 2^53 + 2. -/
theorem witness_RoundIsNearestEven :
    0 < 1 ∧ 2 ^ 53 + 1 < 1 * 2 ^ 1023 ∧ Float64.finite 0x4340000000000001#64 = true ∧
      (Float64.units 0x4340000000000001#64 * (1 : Nat) - exactUnits false (2 ^ 53 + 1)).natAbs =
        (Float64.units (Float64.round false (2 ^ 53 + 1) 1) * (1 : Nat) - exactUnits false (2 ^ 53 + 1)).natAbs ∧
      Float64.units 0x4340000000000001#64 ≠ Float64.units (Float64.round false (2 ^ 53 + 1) 1) := by
  decide +kernel

/-- `DivisionIsNearest`: -500 by 1000, against 0.5. -/
theorem witness_DivisionIsNearest :
    (let a := Float64.cvt (BitVec.ofInt 16 (-500))
     Float64.finite a = true ∧ Float64.finite Float64.scale = true ∧ Float64.finite 0x3FE0000000000000#64 = true ∧
       Float64.magnitude Float64.scale ≠ 0 ∧ Float64.magnitude a < Float64.magnitude Float64.scale * 2 ^ 1023) := by
  decide +kernel

/-- `AdditionIsNearest`: 2 and 0.5; 1 and -1, whose exact sum is zero; +0 and -0. -/
theorem witness_AdditionIsNearest :
    (let a := 0x4000000000000000#64
     let b := 0x3FE0000000000000#64
     Float64.finite a = true ∧ Float64.finite b = true ∧
       (Float64.units a + Float64.units b).natAbs < Float64.unitsPerOne * 2 ^ 1023) ∧
    (let a := 0x3FF0000000000000#64
     let b := 0xBFF0000000000000#64
     Float64.finite a = true ∧ Float64.finite b = true ∧
       (Float64.units a + Float64.units b).natAbs < Float64.unitsPerOne * 2 ^ 1023 ∧
       Float64.units a + Float64.units b = 0 ∧ (Float64.sign a && Float64.sign b) = false) ∧
    (let a := 0x0000000000000000#64
     let b := 0x8000000000000000#64
     Float64.finite a = true ∧ Float64.finite b = true ∧
       Float64.units a + Float64.units b = 0 ∧ (Float64.sign a && Float64.sign b) = false) := by
  decide +kernel

/-- `PipeResult`: no request in flight; a request in flight, with each of the clauses: P-3, P-4, P-8 and P-1. -/
theorem witness_PipeResult :
    State.reset.inflight = false ∧
    (let s := exchange 12#16 [0, 1, 0, 0, 0, 3, 1, 0x83, 2]
     s.inflight = true ∧ (after .decode s).kind ≠ 1#3) ∧
    (let s := exchange 12#16 d25
     s.inflight = true ∧ (after .decode s).kind = 1#3 ∧ (after .decode s).rvcnt.toNat ≠ s.qty.toNat) ∧
    (let s := exchange 11#16 r11
     s.inflight = true ∧ (after .decode s).kind = 1#3 ∧ (after .decode s).rvcnt.toNat = s.qty.toNat ∧
       (after .decode s).rvcnt.toNat = 11) ∧
    (let s := exchange 12#16 r12
     s.inflight = true ∧ (after .decode s).kind = 1#3 ∧ (after .decode s).rvcnt.toNat = s.qty.toNat ∧
       (after .decode s).rvcnt.toNat = 12) := by
  decide +kernel

/-- `PipeOnMatchingResponse`: twelve values asked, twelve given. -/
theorem witness_PipeOnMatchingResponse :
    (let values := List.replicate 12 1#16
     let s := after (.encode 1#16 1#8 0#16 12#16) State.reset
     12 ≤ values.length ∧ values.length ≤ 127 ∧ s.inflight = true ∧ s.qty.toNat = values.length ∧
       completes (.frameRsp header3 values []) s = true) := by
  decide +kernel

/-- `CommandRefusedExactly`, `ReservedCommandRefused`. -/
theorem witness_CommandRefusedExactly :
    reservedWord 0x0000000000000009#64 = true ∧ reservedWord 0x0000000000000102#64 = true ∧
      reservedWord 0x0000000000000004#64 = false ∧ State.reset.inflight = false := by
  decide

/-- `StepStopsOnlyWhere`: each way of stopping, and the last offsets that do not stop. -/
theorem witness_StepStopsOnlyWhere_clauses :
    step (State.reset.setPending [.command 5#64]) = .refused (.reservedCommand 5#64) ∧
      step (State.reset.setPending [.command 4#64]) = .refused .noRequestInFlight ∧
      step (State.reset.setPending [.read (.txb 12)]) = .fault (.noSuchByte .txb 12) ∧
      step (State.reset.setPending [.read (.rxb 263)]) = .fault (.noSuchByte .rxb 263) ∧
      steps (State.reset.setPending [.read (.txb 11)]) = true ∧
      steps (State.reset.setPending [.read (.rxb 262)]) = true := by
  refine ⟨rfl, rfl, rfl, rfl, by decide, by decide⟩

/-- `ArrivalLoadsReceiveBuffer`: an instruction of each class encodes to a received sequence; a frame of nine bytes, and the
263rd byte of D-30's response. -/
theorem witness_ArrivalLoadsReceiveBuffer :
    (∃ bytes, encode (.frameRsp header3 [5#16] [7#8]) = .received bytes) ∧
      (∃ bytes, encode (.frameExc header3 3#7 2#8 []) = .received bytes ∧ bytes.length = 9) ∧
      encode (.frameIllegal [0#8]) = .received [0#8] ∧ encode .frameNone = .received [] ∧
      262 < (bytesOf (d30 ++ [0xEE])).length ∧ (bytesOf (d30 ++ [0xEE])).length = 264 :=
  ⟨⟨_, rfl⟩, ⟨_, rfl, by decide⟩, rfl, rfl, by decide +kernel, by decide +kernel⟩

/-- A received sequence is legal in RXB. -/
theorem receiveLegal_received (numbers : List Nat) : (received numbers).ReceiveLegal := by
  refine ⟨?_, Memory.wf_ofBytes 0 _, fun offset => ?_⟩
  · unfold received
    rw [loadrx_rxlen_toNat]
    omega
  · unfold received
    rw [loadrx_rxlen_toNat, loadrx_read]
    by_cases h : offset < 263 <;> by_cases h' : offset < (bytesOf numbers).length <;> simp [h, h']

/-- `DecodeIdempotent`. -/
theorem witness_DecodeIdempotent : (received d25).ReceiveLegal ∧ completes .decode (received d25) = true :=
  ⟨receiveLegal_received d25, by decide +kernel⟩

/-- `ConvertIdempotent`: a first CONVERT that ends OK, and one that fails. -/
theorem witness_ConvertIdempotent :
    completes .convert (after .decode (received r12)) = true ∧
      (after .convert (after .decode (received r12))).velvalid = true ∧
      completes .convert State.reset = true ∧ (after .convert State.reset).velvalid = false := by
  decide +kernel

/-- `SecondPipeRefused`: a PIPE that ends with a failure. -/
theorem witness_SecondPipeRefused : exec .pipe (exchange 12#16 d25) = .next (after .pipe (exchange 12#16 d25)) :=
  exec_after (by decide +kernel)

/-- `PipeWithoutEncodeRefused`: PIPE, then DECODE and a read, then PIPE again. -/
theorem witness_PipeWithoutEncodeRefused :
    (let s := (exchange 12#16 d25).setPending [.command 4#64, .command 2#64, .read .status, .command 4#64]
     s.NextCommands .pipe ∧ step s = .next (stepped s) ∧
       StepsWithoutEncode (stepped s) (stepped (stepped (stepped s))) ∧
       (stepped (stepped (stepped s))).NextCommands .pipe) := by
  have e2 : decodeCommand 2#64 = .decode := by decide
  have h1 : (stepped ((exchange 12#16 d25).setPending
      [.command 4#64, .command 2#64, .read .status, .command 4#64])).pending.head? = some (.command 2#64) := by
    decide +kernel
  have h2 : (stepped (stepped ((exchange 12#16 d25).setPending
      [.command 4#64, .command 2#64, .read .status, .command 4#64]))).pending.head? = some (.read .status) := by
    decide +kernel
  refine ⟨⟨4#64, rfl, by decide⟩, step_stepped (by decide +kernel),
    .next _ _ _ (fun tid uid addr qty h => ?_) (step_stepped (by decide +kernel))
      (.next _ _ _ (fun tid uid addr qty h => ?_) (step_stepped (by decide +kernel)) (.here _)),
    ⟨4#64, by decide +kernel, by decide⟩⟩
  · obtain ⟨word, hw, hd⟩ := h
    rw [State.NextIs, h1] at hw
    cases hw
    rw [e2] at hd
    cases hd
  · obtain ⟨word, hw, hd⟩ := h
    rw [State.NextIs, h2] at hw
    cases hw

/-- `ResetSetsElements`: RESET in the middle of an exchange. -/
theorem witness_ResetSetsElements :
    ((exchange 12#16 r12).setPending [.reset, .send]).pending = .reset :: [.send] ∧
      steps ((exchange 12#16 r12).setPending [.reset, .send]) = true := by
  decide +kernel

/-- `FirstCommandsAfterReset`. -/
theorem witness_FirstCommandsAfterReset : (resetBlock (exchange 12#16 r12)).AtReset := by
  decide +kernel

/-- The state after P-1. -/
def afterP1 : State := after .pipe (exchange 12#16 r12)

/-- `HostReadsValidElements`: the last valid RV, VEL, TXB and RXB, and STATUS. -/
theorem witness_HostReadsValidElements :
    (11 < afterP1.rvcnt.toNat ∧ afterP1.rv[11] = 0#16) ∧
      (afterP1.velvalid = true ∧ afterP1.vel[5] = 0x4008000000000000#64) ∧
      (11 < 12 ∧ Memory.read afterP1.txb 11 = some 0x0C#8) ∧
      (32 < afterP1.rxlen.toNat ∧ 32 < 263 ∧ Memory.read afterP1.rxb 32 = some 0x00#8) ∧
      afterP1.status &&& 0xFF07#16 = 0x0001#16 ∧
      (let s := afterP1.setPending [.read (.vel 5)]
       s.pending = .read (.vel 5) :: [] ∧ (stepped s).hostView = some (.float 0x4008000000000000#64)) := by
  decide +kernel

/-- `StepRunsDecoded`: a command, an arrival, a send. -/
theorem witness_StepRunsDecoded :
    (actionCode (.command 2#64) State.reset = some (.command 2#64) ∧ decodeCode (.command 2#64) = .ok .decode) ∧
      (actionCode (.loadrx []) State.reset = some (.received []) ∧ decodeCode (.received []) = .ok .frameNone) ∧
      (let s := after (.encode 1#16 1#8 0#16 12#16) State.reset
       ∃ c, actionCode .send s = some c ∧ decodeCode c = .ok (.frameReq 1#16 1#8 0#16 12#16)) :=
  ⟨⟨rfl, rfl⟩, ⟨rfl, rfl⟩, ⟨_, rfl, by decide +kernel⟩⟩

/-- `StepsFollowScript`: with an action, and idle. -/
theorem witness_StepsFollowScript :
    step (State.reset.setPending [.command 2#64]) = .next (stepped (State.reset.setPending [.command 2#64])) ∧
      step State.reset = .next State.reset ∧ State.reset.pending = [] :=
  ⟨step_stepped (by decide +kernel), rfl, rfl⟩

/-- `ElementWriters`: steps that change an element of each group. -/
theorem witness_ElementWriters :
    (let s := (received d25).setPending [.command 2#64]
     steps s = true ∧ (stepped s).rvcnt ≠ s.rvcnt ∧ (stepped s).status ≠ s.status) ∧
    (let s := (after .decode (received r12)).setPending [.command 3#64]
     steps s = true ∧ (stepped s).velvalid ≠ s.velvalid) ∧
    (let s := State.reset.setPending [.command 0x000C000000010101#64]
     steps s = true ∧ (stepped s).tid ≠ s.tid) ∧
    (let s := State.reset.setPending [.loadrx [0x00#8]]
     steps s = true ∧ (stepped s).rxlen ≠ s.rxlen) := by
  decide +kernel

/-- `InflightEvents`: set by ENCODE, cleared by PIPE and by RESET. -/
theorem witness_InflightEvents :
    (let s := State.reset.setPending [.command 0x000C000000010101#64]
     steps s = true ∧ s.inflight = false ∧ (stepped s).inflight = true ∧
       decodeCommand 0x000C000000010101#64 = .encode 1#16 1#8 0#16 12#16) ∧
    (let s := (exchange 12#16 d25).setPending [.command 4#64]
     steps s = true ∧ s.inflight = true ∧ (stepped s).inflight = false ∧ decodeCommand 4#64 = .pipe) ∧
    (let s := (exchange 12#16 d25).setPending [.reset]
     steps s = true ∧ s.inflight = true ∧ (stepped s).inflight = false ∧ s.NextIs .reset) := by
  decide +kernel

/-- `OutcomesPossible`: each operation ends; an arrival and a send too. -/
theorem witness_OutcomesPossible :
    completes (.encode 1#16 1#8 0#16 12#16) State.reset = true ∧ completes .decode State.reset = true ∧
      completes .convert State.reset = true ∧ completes .pipe (exchange 11#16 r11) = true ∧
      (after .pipe (exchange 11#16 r11)).kind = 5#3 ∧ completes (.frameReq 1#16 1#8 0#16 12#16) State.reset = true ∧
      completes .frameNone State.reset = true := by
  decide +kernel

/-- `UnspecifiedNeverMatters`: two states with the reset values and different operands latched, and two states with the same
received bytes. -/
theorem witness_UnspecifiedNeverMatters :
    (State.reset.AtReset ∧ (State.AtReset { State.reset with qty := 12#16 })) ∧
      AgreeWhereSpecified (received d25) { received d25 with qty := 12#16, rv := Vector.replicate 127 1#16 } := by
  refine ⟨⟨by decide, by decide⟩, ⟨rfl, fun i hi h => absurd h (Nat.not_lt_zero i)⟩, ⟨rfl, fun _ => rfl⟩,
    ⟨rfl, fun h => ?_⟩, ⟨rfl, fun offset h => ?_⟩, rfl⟩
  · have idle : (received d25).inflight = false := rfl
    rw [idle] at h
    cases h
  · have listed := (receiveLegal_received d25).2.2 offset
    rw [decide_eq_true h] at listed
    obtain ⟨b, hb⟩ := Option.isSome_iff_exists.1 listed
    exact ⟨b, hb, hb⟩

/-- `StepKeepsLegal`: a request in flight, its response received, PIPE the next command. -/
theorem witness_StepKeepsLegal :
    ((exchange 12#16 r12).setPending [.command 4#64]).Legal ∧
      steps ((exchange 12#16 r12).setPending [.command 4#64]) = true := by
  have held : ∀ k : Fin 12, Memory.read (exchange 12#16 r12).txb k.val =
      (requestBytes (exchange 12#16 r12).tid (exchange 12#16 r12).uid (exchange 12#16 r12).addr
        (exchange 12#16 r12).qty)[k.val]? := by decide +kernel
  have invalid : (exchange 12#16 r12).velvalid = false := by decide +kernel
  refine ⟨⟨by decide +kernel, receiveLegal_received r12, by decide +kernel, fun _ offset h => held ⟨offset, h⟩,
    fun h => ?_⟩, by decide +kernel⟩
  rw [State.setPending_velvalid, invalid] at h
  cases h

end Sys2Proof.Tests
end

/-! PROOFS of the statements on the encoding (30_encoding.md): the command word's table (R59, R60), the refusals (R96),
and DECODE's outcome by its tests (R53, R64). -/

/-! ## The command word, by its bit fields (R59, R60) -/

namespace Sys2Proof

theorem extractLsb'_eq_ofNat_div {w : Nat} (start len : Nat) (x : BitVec w) :
    x.extractLsb' start len = BitVec.ofNat len (x.toNat / 2 ^ start) := by
  rw [BitVec.extractLsb', Nat.shiftRight_eq_div_pow]

/-- ENCODE's row fixes OP and bits 7:3, which are the low byte. -/
theorem matchesRow_lowByte_iff (w : CommandWord) :
    matchesRow 0x00000000000000FF#64 0x0000000000000001#64 w = true ↔ w.toNat % 256 = 1 := by
  have hmask : w.toNat &&& 255 = w.toNat % 256 := Nat.and_two_pow_sub_one_eq_mod w.toNat 8
  simp [matchesRow, ← BitVec.toNat_inj, hmask]

/-- A row whose mask has every bit fixes the whole word. -/
theorem matchesRow_allOnes_iff (pattern w : CommandWord) :
    matchesRow 0xFFFFFFFFFFFFFFFF#64 pattern w = true ↔ w = pattern := by
  have hmask : w &&& 0xFFFFFFFFFFFFFFFF#64 = w := BitVec.and_allOnes
  simp [matchesRow, hmask]

/-- R60's fields, as numbers: the reserved words are those outside R59's four rows. -/
theorem reservedWord_iff (w : CommandWord) :
    reservedWord w = true ↔ w.toNat % 256 ≠ 1 ∧ w ≠ 2#64 ∧ w ≠ 3#64 ∧ w ≠ 4#64 := by
  have hw := w.isLt
  simp only [reservedWord, Bool.or_eq_true, Bool.and_eq_true, beq_iff_eq, bne_iff_ne, ne_eq, ← BitVec.toNat_inj,
    BitVec.extractLsb'_toNat, BitVec.toNat_ofNat, Nat.shiftRight_eq_div_pow]
  omega

/-- R59's rows, each with the condition on the word that selects it. -/
theorem decodeCommand_eq (w : CommandWord) :
    decodeCommand w =
      if w.toNat % 256 = 1 then
        .encode (w.extractLsb' 16 16) (w.extractLsb' 8 8) (w.extractLsb' 32 16) (w.extractLsb' 48 16)
      else if w = 2#64 then .decode
      else if w = 3#64 then .convert
      else if w = 4#64 then .pipe
      else .cmdReserved w := by
  simp only [decodeCommand, matchesRow_lowByte_iff, matchesRow_allOnes_iff]

/-- The words that decode to CMD.RESERVED are the reserved ones, and each carries itself. -/
theorem decodeCommand_eq_cmdReserved_iff (w w' : CommandWord) :
    decodeCommand w = .cmdReserved w' ↔ reservedWord w = true ∧ w = w' := by
  rw [decodeCommand_eq, reservedWord_iff]
  constructor
  · intro h
    split_ifs at h with h1 h2 h3 h4
    exact ⟨⟨h1, h2, h3, h4⟩, Instr.cmdReserved.inj h⟩
  · rintro ⟨⟨h1, h2, h3, h4⟩, rfl⟩
    rw [if_neg h1, if_neg h2, if_neg h3, if_neg h4]

/-- PIPE has one word. -/
theorem decodeCommand_eq_pipe_iff (w : CommandWord) : decodeCommand w = .pipe ↔ w = 4#64 := by
  constructor
  · intro h
    rw [decodeCommand_eq] at h
    split_ifs at h with h1 h2 h3 h4
    exact h4
  · rintro rfl
    rfl

theorem decodeCommand_of_reserved {w : CommandWord} (h : reservedWord w = true) : decodeCommand w = .cmdReserved w :=
  (decodeCommand_eq_cmdReserved_iff w w).2 ⟨h, rfl⟩

end Sys2Proof

/-! ## The instructions that are refused (R96) -/

namespace Sys2Proof.Machine

@[simp] theorem exec_decode (s : State) : exec .decode s = execDecode s := rfl
@[simp] theorem exec_convert (s : State) : exec .convert s = execConvert s := rfl
@[simp] theorem exec_pipe (s : State) : exec .pipe s = execPipe s := rfl
@[simp] theorem exec_cmdReserved (w : CommandWord) (s : State) :
    exec (.cmdReserved w) s = .refused (.reservedCommand w) := rfl

theorem execPipe_refused_iff (s : State) (r : Refusal) :
    execPipe s = .refused r ↔ s.inflight = false ∧ r = .noRequestInFlight := by
  cases h : s.inflight with
  | false => simp [execPipe_of_idle h, eq_comm (a := r)]
  | true => simp [execPipe_of_inflight h]

/-- The refusals of every instruction: CMD.RESERVED always, PIPE with no request in flight, no other. -/
theorem exec_refused_iff (i : Instr) (s : State) (r : Refusal) :
    exec i s = .refused r ↔
      (∃ w, i = .cmdReserved w ∧ r = .reservedCommand w) ∨
        (i = .pipe ∧ s.inflight = false ∧ r = .noRequestInFlight) := by
  cases i with
  | encode => simp [exec, execEncode]
  | decode => rcases execDecode_cases s with ⟨_, _, _, h⟩ | ⟨_, _, h⟩ <;> simp [h]
  | convert => rcases execConvert_cases s with ⟨_, h⟩ | ⟨_, h⟩ <;> simp [h]
  | pipe => simp [execPipe_refused_iff]
  | cmdReserved w => simp [eq_comm (a := r)]
  | frameReq => simp [exec, execFrameReq]
  | frameRsp => simp [exec, execFrameRsp]
  | frameExc => simp [exec, execFrameExc]
  | frameIllegal => simp [exec, execFrameIllegal]
  | frameNone => simp [exec, execFrameNone]

/-! ## DECODE's outcome (R53, R64) -/

/-- What the answer of the tests makes of DECODE's next state `t`: the failure and no valid register, or the values that
the state before it had received. -/
def DecodeOutcome (s t : State) : Except Failure Nat → Prop
  | .error k => t.Reports k ∧ t.rvcnt = 0#7
  | .ok n => t.ReportsOk ∧ t.rvcnt.toNat = n ∧ ∀ i (hi : i < 127), i < n → t.rv[i] = receivedValue s i

/-- DECODE completes, with the outcome of its tests, and writes nothing but RV, RVCNT and STATUS. -/
theorem execDecode_completes (s : State) :
    ∃ t, execDecode s = .next t ∧ DecodeOutcome s t (decodeTests s) ∧ SameReceive s t ∧ SameRequest s t ∧
      t.inflight = s.inflight ∧ SameVelocities s t ∧ SameHost s t := by
  rcases execDecode_cases s with ⟨n, htests, hn, hexec⟩ | ⟨k, htests, hexec⟩ <;> rw [htests]
  · have hcount := s.setRegisters_rvcnt_toNat (receivedValue s) hn
    have hvalues : ∀ i (hi : i < 127), i < n → (s.setRegisters n (receivedValue s)).rv[i] = receivedValue s i :=
      fun i hi h => s.setRegisters_getElem (receivedValue s) h hi
    exact ⟨_, hexec, ⟨⟨finishOk_kind _, finishOk_exc _⟩, hcount, hvalues⟩,
      by simp [SameReceive, SameRequest, SameVelocities, SameHost]⟩
  · obtain ⟨hrequest, hreceive, hhost, -⟩ := raiseFailure_frame k .decode false s
    obtain ⟨hcount, hvelocities⟩ := raiseFailure_decode k false s
    exact ⟨_, hexec, ⟨raiseFailure_reports k .decode false s, hcount⟩, hreceive, hrequest,
      raiseFailure_inflight k .decode false s, hvelocities, hhost⟩

/-- The tests as R53 writes them, on the received length and the bytes at offsets 7 and 8. -/
theorem decodeTests_eq (s : State) :
    decodeTests s =
      if s.rxlen.toNat = 0 then .error .noResponse
      else if s.rxlen.toNat ≤ 8 then .error .malformedResponse
      else if 0x80 ≤ (bufferByte .rxb 7 s).toNat then .error (.protocolException (bufferByte .rxb 8 s))
      else if bufferByte .rxb 7 s ≠ 0x03#8 then .error .malformedResponse
      else if (bufferByte .rxb 8 s).toNat % 2 = 1 then .error .malformedResponse
      else if s.rxlen.toNat < 9 + (bufferByte .rxb 8 s).toNat then .error .malformedResponse
      else .ok ((bufferByte .rxb 8 s).toNat / 2) := by
  have hsign : ∀ fc : U8, fc.msb = true ↔ 0x80 ≤ fc.toNat := fun fc => by simp [BitVec.msb_eq_decide]
  simp only [decodeTests, responseTests, memRead1, responseMin, offsetFunctionCode, offsetByteCount, offsetData, fcRead,
    hsign, Nat.lt_succ_iff]
  rfl

theorem receivedValue_toNat (s : State) (i : Nat) :
    (receivedValue s i).toNat =
      (bufferByte .rxb (9 + 2 * i) s).toNat * 256 + (bufferByte .rxb (10 + 2 * i) s).toNat := by
  rw [show 10 + 2 * i = 9 + 2 * i + 1 by omega]
  exact joinBytes_toNat _ _

/-! ## The obligations -/

/-- Settles O4: R59's rows, with each field of the word as a number. -/
theorem commandWordTable : Obligations.CommandWordTable := by
  intro word
  have hlow : word.toNat % 256 = 1 ↔ word.toNat % 8 = 1 ∧ word.toNat / 8 % 32 = 0 := by omega
  simp only [decodeCommand_eq, hlow, extractLsb'_eq_ofNat_div, ← BitVec.toNat_inj, BitVec.toNat_ofNat]

/-- Settles O8: the outcome of the tests in their order, and the frame. -/
theorem decodeResult : Obligations.DecodeResult := by
  intro s
  obtain ⟨t, hexec, houtcome, ⟨hrxlen, hrxb⟩, ⟨htxb, htid, huid, haddr, hqty⟩, hinflight, hvelocities, hhost⟩ :=
    execDecode_completes s
  refine ⟨t, hexec, ?_, fun _ => by rw [hrxb], fun _ => by rw [htxb], hrxlen, htid, huid, haddr, hqty, hinflight,
    hvelocities, hhost⟩
  rw [decodeTests_eq] at houtcome
  dsimp only
  split_ifs at houtcome ⊢
  iterate 6 exact houtcome
  · obtain ⟨hok, hcount, hvalues⟩ := houtcome
    exact ⟨hok, hcount, fun i hi h => by rw [hvalues i hi h, receivedValue_toNat]⟩

/-- Settles O26: a refusal is CMD.RESERVED's or PIPE's, and each of the two is decoded from its own words. -/
theorem commandRefusedExactly : Obligations.CommandRefusedExactly := by
  intro word s
  rw [perform_command]
  have hrefused : ∀ r, exec (decodeCommand word) s = .refused r ↔
      (reservedWord word = true ∧ r = .reservedCommand word) ∨
        (word = 4#64 ∧ s.inflight = false ∧ r = .noRequestInFlight) := by
    intro r
    simp [exec_refused_iff, decodeCommand_eq_cmdReserved_iff, decodeCommand_eq_pipe_iff]
  refine ⟨?_, fun h => (hrefused _).2 (.inl ⟨h, rfl⟩), fun h hidle => (hrefused _).2 (.inr ⟨h, hidle, rfl⟩)⟩
  simp [hrefused, exists_or]

/-- Settles O27: a reserved word decodes to CMD.RESERVED, which no state runs. -/
theorem reservedCommandRefused : Obligations.ReservedCommandRefused := by
  intro word s h
  rw [decodeCommand_of_reserved h]
  exact ⟨exec_cmdReserved word s, exec_cmdReserved word s⟩

end Sys2Proof.Machine

/-! PROOFS of the statement on ENCODE (40_framecodec.md R62, R63): the request frame that stands in TXB, and the frame. -/

namespace Sys2Proof.Machine

/-- Two listed bytes that are a word's, high byte first, read as that word (R35). -/
theorem memRead2_of_read {buf : Buffer} {offset : Nat} {s : State} {v : U16}
    (hhigh : Memory.read (s.buffer buf) offset = some (highByte v))
    (hlow : Memory.read (s.buffer buf) (offset + 1) = some (lowByte v)) : memRead2 buf offset s = v := by
  rw [memRead2, bufferByte_of_read hhigh, bufferByte_of_read hlow, joinBytes_high_low]

/-- A TXB that lists the twelve bytes of R47 reads as its seven fields. -/
theorem memRead_request_of_read {tid : U16} {uid : U8} {addr qty : U16} {s : State}
    (h : ∀ offset (ho : offset < 12),
      Memory.read s.txb offset = some ((requestBytes tid uid addr qty)[offset]'(by simpa using ho))) :
    memRead2 .txb 0 s = tid ∧ memRead2 .txb 2 s = protoField ∧ memRead2 .txb 4 s = reqLenField ∧
      memRead1 .txb 6 s = uid ∧ memRead1 .txb 7 s = fcRead ∧ memRead2 .txb 8 s = addr ∧ memRead2 .txb 10 s = qty :=
  ⟨memRead2_of_read (h 0 (by decide)) (h 1 (by decide)), memRead2_of_read (h 2 (by decide)) (h 3 (by decide)),
    memRead2_of_read (h 4 (by decide)) (h 5 (by decide)), bufferByte_of_read (h 6 (by decide)),
    bufferByte_of_read (h 7 (by decide)), memRead2_of_read (h 8 (by decide)) (h 9 (by decide)),
    memRead2_of_read (h 10 (by decide)) (h 11 (by decide))⟩

theorem exec_encode (tid : U16) (uid : U8) (addr qty : U16) (s : State) :
    exec (.encode tid uid addr qty) s =
      .next (finishOk ((storeRequest tid uid addr qty s).latchRequest tid uid addr qty)) := rfl

/-- Settles O6: ENCODE's next state is the stored and latched request, ended `Ok`; its TXB is read by `storeRequest_read`, and
what the stores leave is `storeRequest_frame`. -/
theorem encodeResult : Obligations.EncodeResult := by
  intro tid uid addr qty s
  have hread := storeRequest_read tid uid addr qty s
  obtain ⟨hregisters, hvelocities, ⟨hrxlen, hrxb⟩, hhost, -⟩ := storeRequest_frame tid uid addr qty s
  obtain ⟨htid, hproto, hlen, huid, hfc, haddr, hqty⟩ :=
    memRead_request_of_read (s := finishOk ((storeRequest tid uid addr qty s).latchRequest tid uid addr qty))
      fun offset ho => (hread offset).trans (dif_pos ho)
  have hlisted : ∀ offset, offset < 12 → (Memory.read (storeRequest tid uid addr qty s).txb offset).isSome = true :=
    fun offset ho => by rw [hread, dif_pos ho, Option.isSome_some]
  have hkept : ∀ offset, 12 ≤ offset →
      Memory.read (storeRequest tid uid addr qty s).txb offset = Memory.read s.txb offset :=
    fun offset ho => by rw [hread, dif_neg (Nat.not_lt.2 ho)]
  exact ⟨_, exec_encode tid uid addr qty s, htid, hproto, hlen, huid, hfc, haddr, hqty, hlisted, rfl, rfl, rfl, rfl, rfl,
    ⟨finishOk_kind _, finishOk_exc _⟩, rfl, hkept, fun _ => congrArg (Memory.read · _) hrxb, hrxlen, hregisters,
    hvelocities, hhost⟩

end Sys2Proof.Machine

/-! PROOFS of the statements on CONVERT (41_velocitydecoder.md R73, R76, R88): its result, its frame, and the stated values. -/

namespace Sys2Proof.Machine

/-- A velocity of a conversion is its lane's. -/
theorem State.setVelocities_getElem (s : State) (value : Fin 6 → F64) {k : Nat} (hk : k < 6) :
    (s.setVelocities value).vel[k] = value ⟨k, hk⟩ := by
  simp only [State.setVelocities_vel, Vector.getElem_ofFn]

/-- CONVERT completes, and writes nothing but VEL, VELVALID and STATUS, whichever way it ends. -/
theorem execConvert_completes (s : State) :
    ∃ t, execConvert s = .next t ∧
      ((12 ≤ s.rvcnt.toNat ∧ t.ReportsOk ∧ t.velvalid = true ∧ ∀ k (hk : k < 6), t.vel[k] = lane s ⟨k, hk⟩) ∨
        (s.rvcnt.toNat < 12 ∧ t.Reports .invalidRegisterCount ∧ t.velvalid = false)) ∧
      SameReceive s t ∧ SameRequest s t ∧ t.inflight = s.inflight ∧ SameRegisters s t ∧ SameHost s t := by
  rcases execConvert_cases s with ⟨hcount, hexec⟩ | ⟨hcount, hexec⟩
  · exact ⟨_, hexec, .inl ⟨hcount, ⟨finishOk_kind _, finishOk_exc _⟩, rfl, fun _ => s.setVelocities_getElem (lane s)⟩,
      by simp [SameReceive, SameRequest, SameRegisters, SameHost]⟩
  · obtain ⟨hrequest, hreceive, hhost, -⟩ := raiseFailure_frame .invalidRegisterCount .convert false s
    obtain ⟨hregisters, hinvalid⟩ := raiseFailure_later .invalidRegisterCount .convert false s (by decide)
    exact ⟨_, hexec, .inr ⟨hcount, raiseFailure_reports _ .convert false s, hinvalid⟩, hreceive, hrequest,
      raiseFailure_inflight _ .convert false s, hregisters, hhost⟩

/-- Settles O13: the count of values selects one of CONVERT's two ends, and a lane is the pair conversion of its two
registers. -/
theorem convertResult : Obligations.ConvertResult := by
  intro s
  obtain ⟨t, hexec, houtcome, ⟨hrxlen, hrxb⟩, ⟨htxb, htid, huid, haddr, hqty⟩, hinflight, hregisters, hhost⟩ :=
    execConvert_completes s
  refine ⟨t, hexec, ?_, fun _ => by rw [hrxb], fun _ => by rw [htxb], hrxlen, htid, huid, haddr, hqty, hinflight,
    hregisters, hhost⟩
  rcases houtcome with ⟨hcount, hok, hvalid, hlanes⟩ | ⟨hcount, hfailed⟩
  · rw [if_neg (Nat.not_lt.2 hcount)]
    exact ⟨hok, hvalid, hlanes⟩
  · rw [if_pos hcount]
    exact hfailed

/-- Settles O15: R88's four values, each computed by the kernel. The first takes the branch that only divides; the other
three divide and add. -/
theorem statedPairValues : Obligations.StatedPairValues := by
  refine ⟨?_, ?_, ?_, ?_⟩ <;> decide +kernel

end Sys2Proof.Machine

/-! PROOFS of the statement on PIPE (42_pipeline.md R89, R90): its outcome by the answer of the decode tests, and its frame. -/

namespace Sys2Proof.Machine

/-- PIPE's first act, INFLIGHT <- 0, hides nothing from the decode tests. -/
theorem decodeTests_clearInflight (s : State) : decodeTests s.clearInflight = decodeTests s :=
  decodeTests_congr rfl rfl rfl

/-- The lanes after a decode of at least twelve values convert these values (R52, R75). -/
theorem lane_setRegisters (s : State) {n : Nat} (value : Nat → S16) (hn : 12 ≤ n) (k : Fin 6) :
    lane (s.setRegisters n value) k = pairconv (value (2 * k.val)) (value (2 * k.val + 1)) := by
  rw [lane, integerPart, fractionalPart, s.setRegisters_getElem value (by omega), s.setRegisters_getElem value (by omega)]

/-- What the answer of the decode tests makes of PIPE's next state `t` (R89, R90): the decode's failure, or the received values
with the count check's failure, the convert stage's failure, or the conversions. -/
def PipeOutcome (s t : State) : Except Failure Nat → Prop
  | .error k => t.status = statusWord k.kind k.exc ∧ t.rvcnt = 0#7 ∧ t.velvalid = false
  | .ok n => t.rvcnt.toNat = n ∧ (∀ i (hi : i < 127), i < n → t.rv[i] = receivedValue s i) ∧
      if n ≠ s.qty.toNat then t.Reports .malformedResponse ∧ t.velvalid = false
      else if n < 12 then t.Reports .invalidRegisterCount ∧ t.velvalid = false
      else t.ReportsOk ∧ t.velvalid = true ∧
        ∀ k (hk : k < 6), t.vel[k] = pairconv (receivedValue s (2 * k)) (receivedValue s (2 * k + 1))

theorem pipeStages_outcome (s : State) : PipeOutcome s (pipeStages s) (decodeTests s) := by
  rcases pipeStages_cases s with ⟨k, htests, hend⟩ | ⟨n, d, htests, hn, hd, hlater⟩ <;> rw [htests]
  · rw [hend]
    exact ⟨raiseFailure_status k .decode true s, raiseFailure_decode k true s⟩
  · have hcount : d.rvcnt.toNat = n := hd ▸ s.setRegisters_rvcnt_toNat (receivedValue s) hn
    have hvalues : ∀ i (hi : i < 127), i < n → d.rv[i] = receivedValue s i := by
      subst hd
      exact fun i hi hlt => s.setRegisters_getElem (receivedValue s) hlt hi
    have hraised : ∀ k stage, stage ≠ .decode → let t := raiseFailure k stage true d
        t.rvcnt.toNat = n ∧ (∀ i (hi : i < 127), i < n → t.rv[i] = receivedValue s i) ∧
          t.Reports k ∧ t.velvalid = false := by
      intro k stage hstage
      obtain ⟨⟨hrv, hrvcnt⟩, hinvalid⟩ := raiseFailure_later k stage true d hstage
      simp only [hrv, hrvcnt]
      exact ⟨hcount, hvalues, raiseFailure_reports k stage true d, hinvalid⟩
    rcases hlater with ⟨hqty, hend⟩ | ⟨hqty, hfew, hend⟩ | ⟨hqty, hmany, hend⟩ <;> rw [hend, PipeOutcome]
    · rw [if_pos hqty]
      exact hraised .malformedResponse .count (by decide)
    · rw [if_neg (not_not.2 hqty), if_pos hfew]
      exact hraised .invalidRegisterCount .convert (by decide)
    · rw [if_neg (not_not.2 hqty), if_neg (Nat.not_lt.2 hmany)]
      refine ⟨hcount, hvalues, ⟨finishOk_kind _, finishOk_exc _⟩, rfl, fun k hk => ?_⟩
      simp only [finishOk_vel, State.setVelocities_getElem, hd, lane_setRegisters s _ hmany]

/-- R90's "never written", where a failure ends PIPE (R105). -/
theorem raiseFailure_pipe_frame (k : Failure) (stage : Stage) (s : State) :
    SameReceive s (raiseFailure k stage true s) ∧ SameRequest s (raiseFailure k stage true s) ∧
      (raiseFailure k stage true s).inflight = false ∧ SameHost s (raiseFailure k stage true s) := by
  obtain ⟨hrequest, hreceive, hhost, -⟩ := raiseFailure_frame k stage true s
  exact ⟨hreceive, hrequest, raiseFailure_inflight k stage true s, hhost⟩

/-- R90's "never written", and INFLIGHT, which no stage sets. -/
theorem pipeStages_frame (s : State) (hidle : s.inflight = false) :
    SameReceive s (pipeStages s) ∧ SameRequest s (pipeStages s) ∧ (pipeStages s).inflight = false ∧
      SameHost s (pipeStages s) := by
  rcases pipeStages_cases s with ⟨k, -, hend⟩ | ⟨n, _, -, -, rfl, ⟨-, hend⟩ | ⟨-, -, hend⟩ | ⟨-, -, hend⟩⟩ <;> rw [hend]
  · exact raiseFailure_pipe_frame k .decode s
  · exact raiseFailure_pipe_frame .malformedResponse .count (s.setRegisters n (receivedValue s))
  · exact raiseFailure_pipe_frame .invalidRegisterCount .convert (s.setRegisters n (receivedValue s))
  · simp [SameReceive, SameRequest, SameHost, hidle]

/-- With a request in flight PIPE completes, with the outcome of the decode tests; it clears INFLIGHT, and writes nothing else
but RV, RVCNT, VEL, VELVALID and STATUS. -/
theorem execPipe_completes {s : State} (h : s.inflight = true) :
    ∃ t, execPipe s = .next t ∧ PipeOutcome s t (decodeTests s) ∧ SameReceive s t ∧ SameRequest s t ∧
      t.inflight = false ∧ SameHost s t :=
  ⟨_, execPipe_of_inflight h, decodeTests_clearInflight s ▸ pipeStages_outcome s.clearInflight,
    pipeStages_frame s.clearInflight rfl⟩

/-- A failed DECODE writes the whole of STATUS (R27), so that PIPE's failure with the same KIND and EXC has the same word. -/
theorem execDecode_status_of_error {s d : State} {k : Failure} (htests : decodeTests s = .error k)
    (hexec : execDecode s = .next d) : d.status = statusWord k.kind k.exc := by
  rw [execDecode, decodeStage_of_error htests] at hexec
  injection hexec with hd
  exact hd ▸ raiseFailure_status k .decode false s

/-- Settles O24: DECODE and PIPE make the same tests. Where these fail, both end with their failure; where they answer a count,
both hold that many received values, and PIPE goes on with its two later tests. -/
theorem pipeResult : Obligations.PipeResult := by
  intro s
  refine ⟨execPipe_of_idle, fun hinflight => ?_⟩
  obtain ⟨d, hdecode, hdecoded, -⟩ := execDecode_completes s
  obtain ⟨t, hpipe, hpiped, ⟨hrxlen, hrxb⟩, ⟨htxb, htid, huid, haddr, hqty⟩, hcleared, hhost⟩ :=
    execPipe_completes hinflight
  refine ⟨d, t, hdecode, hpipe, hcleared, ?_, fun _ => by rw [hrxb], fun _ => by rw [htxb], hrxlen, htid, huid, haddr, hqty,
    hhost⟩
  cases htests : decodeTests s <;> rw [htests] at hdecoded hpiped
  case error k =>
    obtain ⟨hstatus, hinvalid⟩ := hpiped
    rw [if_pos (hdecoded.1.1 ▸ k.kind_ne_ok)]
    exact ⟨hstatus.trans (execDecode_status_of_error htests hdecode).symm, hinvalid⟩
  case ok n =>
    obtain ⟨⟨hok, -⟩, hdcount, hdvalues⟩ := hdecoded
    obtain ⟨htcount, htvalues, hlater⟩ := hpiped
    rw [if_neg (not_not.2 hok), hdcount]
    refine ⟨BitVec.eq_of_toNat_eq (htcount.trans hdcount.symm),
      fun i hi hlt => (htvalues i hi hlt).trans (hdvalues i hi hlt).symm, ?_⟩
    split_ifs at hlater ⊢
    · exact hlater
    · exact hlater
    · obtain ⟨htok, hvalid, hlanes⟩ := hlater
      exact ⟨htok, hvalid, fun k hk => by rw [hlanes k hk, hdvalues _ _ (by omega), hdvalues _ _ (by omega)]⟩

end Sys2Proof.Machine

/-! PROOFS of the statements on encodings (30_encoding.md sections 2, 4, 6): the decoder and the encoder invert each other,
and what that says of ENCODE's bytes and of a step. -/

/-! ## The command word -/

namespace Sys2Proof

/-- ENCODE's word by its fields (R59). -/
theorem encodeWord_toNat (tid : U16) (uid : U8) (addr qty : U16) :
    (qty ++ addr ++ tid ++ uid ++ 0x01#8).toNat =
      (((qty.toNat * 2 ^ 16 + addr.toNat) * 2 ^ 16 + tid.toNat) * 2 ^ 8 + uid.toNat) * 2 ^ 8 + 1 := by
  have happend : ∀ {v w : Nat} (x : BitVec v) (y : BitVec w), (x ++ y).toNat = x.toNat * 2 ^ w + y.toNat := by
    intro v w x y
    rw [BitVec.toNat_append, ← Nat.shiftLeft_add_eq_or_of_lt y.isLt, Nat.shiftLeft_eq]
  simp only [happend, BitVec.toNat_ofNat]

theorem decodeCommand_encodeWord (tid : U16) (uid : U8) (addr qty : U16) :
    decodeCommand (qty ++ addr ++ tid ++ uid ++ 0x01#8) = .encode tid uid addr qty := by
  have hw := encodeWord_toNat tid uid addr qty
  have := tid.isLt
  have := uid.isLt
  have := addr.isLt
  have := qty.isLt
  rw [decodeCommand_eq, if_pos (by omega)]
  congr 1 <;> apply BitVec.eq_of_toNat_eq <;>
    rw [BitVec.extractLsb'_toNat, Nat.shiftRight_eq_div_pow, hw] <;> omega

/-- A word in ENCODE's row is made of its four fields and the low byte 1. -/
theorem encodeWord_extract {w : CommandWord} (h : w.toNat % 256 = 1) :
    w.extractLsb' 48 16 ++ w.extractLsb' 32 16 ++ w.extractLsb' 16 16 ++ w.extractLsb' 8 8 ++ 0x01#8 = w := by
  have hw := w.isLt
  apply BitVec.eq_of_toNat_eq
  rw [encodeWord_toNat]
  simp only [BitVec.extractLsb'_toNat, Nat.shiftRight_eq_div_pow]
  omega

theorem encode_decodeCommand (w : CommandWord) :
    (decodeCommand w).wf = true ∧ encode (decodeCommand w) = .command w := by
  rw [decodeCommand_eq]
  split_ifs with h1 h2 h3 h4
  · exact ⟨rfl, congrArg Code.command (encodeWord_extract h1)⟩
  · exact ⟨rfl, congrArg Code.command h2.symm⟩
  · exact ⟨rfl, congrArg Code.command h3.symm⟩
  · exact ⟨rfl, congrArg Code.command h4.symm⟩
  · exact ⟨(reservedWord_iff w).2 ⟨h1, h2, h3, h4⟩, rfl⟩

/-! ## Received sequences -/

/-- A sequence of nine bytes or more is a header, a function code, the byte at offset 8 and what follows (R48, R49). -/
theorem exists_header {bytes : List Byte} (h : 9 ≤ bytes.length) :
    ∃ m fc bc rest, bytes = mbapBytes m ++ fc :: bc :: rest := by
  match bytes, h with
  | b0 :: b1 :: b2 :: b3 :: b4 :: b5 :: b6 :: fc :: bc :: rest, _ =>
    exact ⟨mbapOfBytes b0 b1 b2 b3 b4 b5 b6, fc, bc, rest, by simp [mbapBytes, mbapOfBytes]⟩

/-- R53's tests on a sequence of nine bytes or more. -/
theorem decodeReceived_header (m : Mbap) (fc bc : Byte) (rest : List Byte) :
    decodeReceived (mbapBytes m ++ fc :: bc :: rest) =
      if fc.msb then .frameExc m (fc.extractLsb' 0 7) bc rest
      else if fc ≠ fcRead ∨ bc.toNat % 2 = 1 ∨ rest.length < bc.toNat then
        .frameIllegal (mbapBytes m ++ fc :: bc :: rest)
      else .frameRsp m (wordsOfBytes (rest.take bc.toNat)) (rest.drop bc.toNat) := by
  simp only [mbapBytes, List.cons_append, List.nil_append, decodeReceived, mbapOfBytes, joinBytes_high_low, ite_or]

/-- R53's first two tests. -/
theorem decodeReceived_short {bytes : List Byte} (hpos : 0 < bytes.length) (h : bytes.length ≤ 8) :
    decodeReceived bytes = .frameIllegal bytes := by
  unfold decodeReceived
  split
  · exact absurd hpos (Nat.lt_irrefl 0)
  · simp only [List.length_cons] at h
    omega
  · rfl

/-- R53's tests 4 to 6, as the check writes them, on a sequence of nine bytes or more. -/
theorem illegalSequence_header (m : Mbap) (fc bc : Byte) (rest : List Byte) :
    illegalSequence (mbapBytes m ++ fc :: bc :: rest) = true ↔
      fc.msb = false ∧ (fc ≠ fcRead ∨ bc.toNat % 2 = 1 ∨ rest.length < bc.toNat) := by
  have hlen : (mbapBytes m ++ fc :: bc :: rest).length = 9 + rest.length := by
    simp only [List.length_append, mbapBytes_length, List.length_cons]
    omega
  have hfc : (mbapBytes m ++ fc :: bc :: rest).getD 7 0#8 = fc := rfl
  have hbc : (mbapBytes m ++ fc :: bc :: rest).getD 8 0#8 = bc := rfl
  have hlong : ¬9 + rest.length ≤ 8 := by omega
  simp [illegalSequence, hlen, hfc, hbc, hlong, or_assoc, -List.getD_eq_getElem?_getD]

/-- Bit 7 and the low seven bits make the byte. -/
theorem functionCode_split {fc : Byte} (h : fc.msb = true) : 1#1 ++ fc.extractLsb' 0 7 = fc := by
  revert fc
  decide

theorem functionCode_join (low : BitVec 7) :
    (1#1 ++ low : Byte).msb = true ∧ (1#1 ++ low : Byte).extractLsb' 0 7 = low := by
  revert low
  decide

theorem encode_decodeReceived (bytes : List Byte) :
    (decodeReceived bytes).wf = true ∧ encode (decodeReceived bytes) = .received bytes := by
  rcases Nat.eq_zero_or_pos bytes.length with h0 | hpos
  · rw [List.length_eq_zero_iff.1 h0]
    exact ⟨rfl, rfl⟩
  rcases Nat.lt_or_ge bytes.length 9 with hshort | hlong
  · rw [decodeReceived_short hpos (by omega)]
    refine ⟨?_, rfl⟩
    simp [Instr.wf, illegalSequence]
    omega
  obtain ⟨m, fc, bc, rest, rfl⟩ := exists_header hlong
  rw [decodeReceived_header]
  split_ifs with hsign hillegal
  · exact ⟨rfl, by rw [encode, exceptionBytes, functionCode_split hsign]⟩
  · exact ⟨(illegalSequence_header m fc bc rest).2 ⟨by simpa using hsign, hillegal⟩, rfl⟩
  · simp only [not_or, not_not, Nat.not_lt] at hillegal
    obtain ⟨hread, heven, hlen⟩ := hillegal
    have hcount : (rest.take bc.toNat).length = bc.toNat := by simpa using hlen
    have hbyte : BitVec.ofNat 8 (2 * (wordsOfBytes (rest.take bc.toNat)).length) = bc := by
      apply BitVec.eq_of_toNat_eq
      rw [wordsOfBytes_length, hcount, BitVec.toNat_ofNat]
      omega
    refine ⟨?_, ?_⟩
    · simp only [Instr.wf, wordsOfBytes_length, hcount, maxValues, decide_eq_true_eq]
      omega
    · rw [encode, responseBytes, hbyte, bytesOfWords_wordsOfBytes _ (by omega), List.take_append_drop, hread]

theorem decodeReceived_illegal {bytes : List Byte} (h : illegalSequence bytes = true) :
    decodeReceived bytes = .frameIllegal bytes := by
  rcases Nat.lt_or_ge bytes.length 9 with hshort | hlong
  · have hpos : 0 < bytes.length := by
      simp [illegalSequence] at h
      omega
    exact decodeReceived_short hpos (by omega)
  · obtain ⟨m, fc, bc, rest, rfl⟩ := exists_header hlong
    obtain ⟨hsign, hillegal⟩ := (illegalSequence_header m fc bc rest).1 h
    rw [decodeReceived_header, if_neg (by simp [hsign]), if_pos hillegal]

theorem decodeReceived_exceptionBytes (m : Mbap) (low : BitVec 7) (code : U8) (trailing : List Byte) :
    decodeReceived (exceptionBytes m low code trailing) = .frameExc m low code trailing := by
  obtain ⟨hsign, hlow⟩ := functionCode_join low
  rw [exceptionBytes, decodeReceived_header, if_pos hsign, hlow]

/-- byteCount of at most 127 values is not cut to its byte. -/
theorem byteCount_toNat {n : Nat} (h : n ≤ 127) : (BitVec.ofNat 8 (2 * n)).toNat = 2 * n := by
  rw [BitVec.toNat_ofNat]
  omega

theorem decodeReceived_responseBytes (m : Mbap) {values : List S16} (trailing : List Byte) (h : values.length ≤ 127) :
    decodeReceived (responseBytes m values trailing) = .frameRsp m values trailing := by
  have hlen := bytesOfWords_length values
  rw [responseBytes, decodeReceived_header, if_neg (by decide), byteCount_toNat h, if_neg (by simp), ← hlen,
    List.take_left, List.drop_left, wordsOfBytes_bytesOfWords]

/-! ## The request frame -/

theorem decodeRequest_requestBytes (tid : U16) (uid : U8) (addr qty : U16) :
    decodeRequest (requestBytes tid uid addr qty) = .ok (.frameReq tid uid addr qty) := by
  simp [decodeRequest, requestBytes]

theorem encode_of_decodeRequest {bytes : List Byte} {i : Instr} (h : decodeRequest bytes = .ok i) :
    i.wf = true ∧ encode i = .request bytes := by
  unfold decodeRequest at h
  split at h
  · next t1 t0 p1 p0 l1 l0 u fc a1 a0 q1 q0 =>
    split_ifs at h with hconst
    · obtain ⟨hproto, hlen, rfl⟩ := hconst
      cases h
      refine ⟨rfl, ?_⟩
      rw [encode, requestBytes, ← hproto, ← hlen]
      simp
  · cases h

theorem requestBytes_injective {tid tid' : U16} {uid uid' : U8} {addr addr' qty qty' : U16}
    (h : requestBytes tid uid addr qty = requestBytes tid' uid' addr' qty') :
    tid = tid' ∧ uid = uid' ∧ addr = addr' ∧ qty = qty' := by
  have hdecoded := decodeRequest_requestBytes tid uid addr qty
  rw [h, decodeRequest_requestBytes] at hdecoded
  obtain ⟨rfl, rfl, rfl, rfl⟩ := Instr.frameReq.inj (Except.ok.inj hdecoded)
  exact ⟨rfl, rfl, rfl, rfl⟩

/-! ## The obligations -/

/-- Settles O1, by the kind of code each row encodes to. -/
theorem decodeOfEncode : Obligations.DecodeOfEncode := by
  intro i hwf
  cases i with
  | encode tid uid addr qty => exact congrArg Except.ok (decodeCommand_encodeWord tid uid addr qty)
  | decode => rfl
  | convert => rfl
  | pipe => rfl
  | cmdReserved w => exact congrArg Except.ok (decodeCommand_of_reserved hwf)
  | frameReq tid uid addr qty => exact decodeRequest_requestBytes tid uid addr qty
  | frameRsp m values trailing =>
    exact congrArg Except.ok (decodeReceived_responseBytes m trailing (of_decide_eq_true hwf))
  | frameExc m low code trailing => exact congrArg Except.ok (decodeReceived_exceptionBytes m low code trailing)
  | frameIllegal bytes => exact congrArg Except.ok (decodeReceived_illegal hwf)
  | frameNone => rfl

/-- Settles O2, by the kind of code. -/
theorem encodeOfDecode : Obligations.EncodeOfDecode := by
  intro c i h
  cases c with
  | command w =>
    cases h
    exact encode_decodeCommand w
  | received bytes =>
    cases h
    exact encode_decodeReceived bytes
  | request bytes => exact encode_of_decodeRequest h

/-- Settles O3: each word and frame is decoded by evaluation. -/
theorem wordsDecodeAsWritten : Obligations.WordsDecodeAsWritten := by
  unfold Obligations.WordsDecodeAsWritten
  decide

end Sys2Proof

namespace Sys2Proof.Machine

/-- Settles O7: TXB holds the frame of the operands, and the frame decodes to them. -/
theorem requestOperandsReadBack : Obligations.RequestOperandsReadBack := by
  intro tid tid' uid uid' addr addr' qty qty' s s' t t' h h' hbytes
  obtain rfl := Host.Outcome.next.inj ((exec_encode tid uid addr qty s).symm.trans h)
  obtain rfl := Host.Outcome.next.inj ((exec_encode tid' uid' addr' qty' s').symm.trans h')
  rw [txBytes_execEncode, txBytes_execEncode] at hbytes
  exact requestBytes_injective hbytes

/-- A code that decodes runs what it decodes to. -/
theorem runCode_of_decode {c : Code} {i : Instr} (s : State) (h : decodeCode c = .ok i) : runCode c s = exec i s := by
  rw [runCode, h]

/-- A host action that carries a code runs it. -/
theorem perform_of_actionCode {a : HostAction} {c : Code} {s : State} (h : actionCode a s = some c) :
    perform a s = runCode c s := by
  cases a <;> cases h <;> rfl

/-- Settles O39: the action's code is run, and the code is what its decoding runs. -/
theorem stepRunsDecoded : Obligations.StepRunsDecoded := by
  intro s a rest c i hpending hcode hdecode
  rw [step_of_cons hpending, perform_of_actionCode hcode, runCode_of_decode _ hdecode]

/-- Settles O31: the bytes that ENCODE left in TXB decode to the frame with its operands. -/
theorem sendAfterEncode : Obligations.SendAfterEncode := by
  intro tid uid addr qty s t rest h hpending
  obtain rfl := Host.Outcome.next.inj ((exec_encode tid uid addr qty s).symm.trans h)
  have hrequest := decodeRequest_requestBytes tid uid addr qty
  rw [← txBytes_execEncode tid uid addr qty s] at hrequest
  have hnext : (finishOk ((storeRequest tid uid addr qty s).latchRequest tid uid addr qty)).pending = .send :: rest := by
    simpa [storeRequest, put16be] using hpending
  rw [step_of_cons hnext]
  exact runCode_of_decode _ hrequest

end Sys2Proof.Machine

/-! What an instruction can do, said once: its next state, what it leaves unchanged, and STATUS after it (R17's access table,
R23, R27). -/

namespace Sys2Proof.Machine

/-! ## STATUS -/

/-- A legal STATUS is made of its two fields. -/
theorem State.StatusLegal.status_eq {s : State} (h : s.StatusLegal) : s.status = statusWord s.kind s.exc := by
  have hreserved : s.status.toNat / 2 ^ 3 % 2 ^ 5 = 0 := by
    have := congrArg BitVec.toNat h.1
    rwa [BitVec.extractLsb'_toNat, Nat.shiftRight_eq_div_pow] at this
  have hlt := s.status.isLt
  apply BitVec.eq_of_toNat_eq
  simp only [statusWord_toNat, State.kind, State.exc, BitVec.extractLsb'_toNat, Nat.shiftRight_eq_div_pow]
  omega

theorem State.ReportsOk.status_eq {s : State} (h : s.ReportsOk) (hlegal : s.StatusLegal) : s.status = 0x0001#16 := by
  obtain ⟨hkind, hexc⟩ := h
  rw [hlegal.status_eq, hkind, hexc]
  rfl

theorem finishOk_statusLegal (s : State) : (finishOk s).StatusLegal :=
  s.statusLegal_setStatus kindOk 0#8 (by decide) fun _ => rfl

theorem raiseFailure_statusLegal (k : Failure) (stage : Stage) (inPipe : Bool) (s : State) :
    (raiseFailure k stage inPipe s).StatusLegal :=
  State.statusLegal_setStatus
    (if inPipe then (invalidateStage stage inPipe s).clearInflight else invalidateStage stage inPipe s)
    k.kind k.exc k.kind_le k.exc_eq_zero

theorem pipeStages_statusLegal (s : State) : (pipeStages s).StatusLegal := by
  rcases pipeStages_cases s with ⟨k, -, hend⟩ | ⟨_, d, -, -, -, ⟨-, hend⟩ | ⟨-, -, hend⟩ | ⟨-, -, hend⟩⟩ <;> rw [hend]
  · exact raiseFailure_statusLegal k .decode true s
  · exact raiseFailure_statusLegal .malformedResponse .count true d
  · exact raiseFailure_statusLegal .invalidRegisterCount .convert true d
  · exact finishOk_statusLegal _

/-! ## The next state -/

theorem exec_frameReq (tid : U16) (uid : U8) (addr qty : U16) (s : State) :
    exec (.frameReq tid uid addr qty) s = .next (s.handOver (.frame (requestBytes tid uid addr qty))).tick := rfl

/-- Every instruction that is a received sequence is LOADRX of its bytes. -/
theorem exec_of_encode_received {i : Instr} {bytes : List Byte} (h : encode i = .received bytes) (s : State) :
    exec i s = .next (loadrx bytes s) := by
  cases i <;> cases h <;> rfl

theorem exec_decodeReceived (bytes : List Byte) (s : State) :
    exec (decodeReceived bytes) s = .next (loadrx bytes s) :=
  exec_of_encode_received (encode_decodeReceived bytes).2 s

/-- DECODE's next state, by what the tests answered. -/
theorem execDecode_next {s t : State} (h : exec .decode s = .next t) :
    (∃ n, decodeTests s = .ok n ∧ n ≤ 127 ∧ t = finishOk (s.setRegisters n (receivedValue s))) ∨
      (∃ k, decodeTests s = .error k ∧ t = raiseFailure k .decode false s) := by
  rcases execDecode_cases s with ⟨n, htests, hn, hexec⟩ | ⟨k, htests, hexec⟩
  · exact .inl ⟨n, htests, hn, Host.Outcome.next.inj (h.symm.trans hexec)⟩
  · exact .inr ⟨k, htests, Host.Outcome.next.inj (h.symm.trans hexec)⟩

/-- CONVERT's next state. -/
theorem execConvert_next {s t : State} (h : exec .convert s = .next t) :
    (12 ≤ s.rvcnt.toNat ∧ t = finishOk (s.setVelocities (lane s))) ∨
      (s.rvcnt.toNat < 12 ∧ t = raiseFailure .invalidRegisterCount .convert false s) := by
  rcases execConvert_cases s with ⟨hcount, hexec⟩ | ⟨hcount, hexec⟩
  · exact .inl ⟨hcount, Host.Outcome.next.inj (h.symm.trans hexec)⟩
  · exact .inr ⟨hcount, Host.Outcome.next.inj (h.symm.trans hexec)⟩

/-- PIPE's next state: it completes only with a request in flight. -/
theorem execPipe_next {s t : State} (h : exec .pipe s = .next t) :
    s.inflight = true ∧ t = pipeStages s.clearInflight := by
  cases hinflight : s.inflight with
  | false => exact nomatch (execPipe_of_idle hinflight).symm.trans h
  | true => exact ⟨rfl, Host.Outcome.next.inj (h.symm.trans (execPipe_of_inflight hinflight))⟩

/-- Everything an instruction that completes can be. -/
theorem exec_cases {i : Instr} {s t : State} (h : exec i s = .next t) :
    (∃ tid uid addr qty, i = .encode tid uid addr qty ∧
        t = finishOk ((storeRequest tid uid addr qty s).latchRequest tid uid addr qty)) ∨
      (i = .decode ∧ exec .decode s = .next t) ∨
      (i = .convert ∧ exec .convert s = .next t) ∨
      (i = .pipe ∧ s.inflight = true ∧ t = pipeStages s.clearInflight) ∨
      (∃ tid uid addr qty, i = .frameReq tid uid addr qty ∧
        t = (s.handOver (.frame (requestBytes tid uid addr qty))).tick) ∨
      (∃ bytes, encode i = .received bytes ∧ t = loadrx bytes s) := by
  have harrival : ∀ bytes, encode i = .received bytes → ∃ bytes, encode i = .received bytes ∧ t = loadrx bytes s :=
    fun bytes hencode => ⟨bytes, hencode, Host.Outcome.next.inj (h.symm.trans (exec_of_encode_received hencode s))⟩
  cases i with
  | encode tid uid addr qty =>
    exact .inl ⟨tid, uid, addr, qty, rfl, Host.Outcome.next.inj (h.symm.trans (exec_encode tid uid addr qty s))⟩
  | decode => exact .inr (.inl ⟨rfl, h⟩)
  | convert => exact .inr (.inr (.inl ⟨rfl, h⟩))
  | pipe => exact .inr (.inr (.inr (.inl ⟨rfl, execPipe_next h⟩)))
  | cmdReserved w => cases h
  | frameReq tid uid addr qty =>
    exact .inr (.inr (.inr (.inr (.inl
      ⟨tid, uid, addr, qty, rfl, Host.Outcome.next.inj (h.symm.trans (exec_frameReq tid uid addr qty s))⟩))))
  | frameRsp | frameExc | frameIllegal | frameNone => exact .inr (.inr (.inr (.inr (.inr (harrival _ rfl)))))

theorem execDecode_statusLegal {s t : State} (h : exec .decode s = .next t) : t.StatusLegal := by
  rcases execDecode_next h with ⟨n, -, -, rfl⟩ | ⟨k, -, rfl⟩
  · exact finishOk_statusLegal _
  · exact raiseFailure_statusLegal k .decode false s

theorem execConvert_statusLegal {s t : State} (h : exec .convert s = .next t) : t.StatusLegal := by
  rcases execConvert_next h with ⟨-, rfl⟩ | ⟨-, rfl⟩
  · exact finishOk_statusLegal _
  · exact raiseFailure_statusLegal .invalidRegisterCount .convert false s

/-! ## What an instruction leaves unchanged -/

/-- INFLIGHT after an instruction (R23). -/
def inflightAfter : Instr → Bool → Bool
  | .encode _ _ _ _, _ => true
  | .pipe, _ => false
  | _, inflight => inflight

/-- INFLIGHT is another value only after ENCODE or PIPE. -/
theorem inflightAfter_cases (i : Instr) (inflight : Bool) :
    (∃ tid uid addr qty, i = .encode tid uid addr qty) ∨ i = .pipe ∨ inflightAfter i inflight = inflight := by
  cases i with
  | encode tid uid addr qty => exact .inl ⟨tid, uid, addr, qty, rfl⟩
  | pipe => exact .inr (.inl rfl)
  | decode | convert | cmdReserved | frameReq | frameRsp | frameExc | frameIllegal | frameNone => exact .inr (.inr rfl)

theorem eq_encode_of_inflightAfter {i : Instr} (h : inflightAfter i false = true) :
    ∃ tid uid addr qty, i = .encode tid uid addr qty := by
  rcases inflightAfter_cases i false with hencode | rfl | hkept
  · exact hencode
  · cases h
  · exact absurd (hkept.symm.trans h) Bool.false_ne_true

theorem eq_pipe_of_inflightAfter {i : Instr} (h : inflightAfter i true = false) : i = .pipe := by
  rcases inflightAfter_cases i true with ⟨_, _, _, _, rfl⟩ | hpipe | hkept
  · cases h
  · exact hpipe
  · exact absurd (h.symm.trans hkept) Bool.false_ne_true

/-- Which instruction may write what (R17's access table). -/
structure ExecFrame (i : Instr) (s t : State) : Prop where
  registers : SameRegisters s t ∨ i = .decode ∨ i = .pipe
  velocities : SameVelocities s t ∨ i = .convert ∨ i = .pipe
  request : SameRequest s t ∨ ∃ tid uid addr qty, i = .encode tid uid addr qty
  receive : SameReceive s t ∨ ∃ bytes, encode i = .received bytes
  status : t.status = s.status ∨ (∃ word, encode i = .command word) ∧ t.StatusLegal
  inflight : t.inflight = inflightAfter i s.inflight
  pending : t.pending = s.pending

theorem execFrame {i : Instr} {s t : State} (h : exec i s = .next t) : ExecFrame i s t := by
  rcases exec_cases h with ⟨tid, uid, addr, qty, rfl, rfl⟩ | ⟨rfl, hexec⟩ | ⟨rfl, hexec⟩ | ⟨rfl, hinflight, rfl⟩ |
    ⟨tid, uid, addr, qty, rfl, rfl⟩ | ⟨bytes, hencode, rfl⟩
  · obtain ⟨hregisters, hvelocities, hreceive, ⟨hpending, -⟩, -⟩ := storeRequest_frame tid uid addr qty s
    exact ⟨.inl hregisters, .inl hvelocities, .inr ⟨_, _, _, _, rfl⟩, .inl hreceive,
      .inr ⟨⟨_, rfl⟩, finishOk_statusLegal _⟩, rfl, hpending⟩
  · obtain ⟨t', hexec', -, hreceive, hrequest, hinflight, hvelocities, hpending, -⟩ := execDecode_completes s
    obtain rfl := Host.Outcome.next.inj (hexec'.symm.trans hexec)
    exact ⟨.inr (.inl rfl), .inl hvelocities, .inl hrequest, .inl hreceive,
      .inr ⟨⟨_, rfl⟩, execDecode_statusLegal hexec⟩, hinflight, hpending⟩
  · obtain ⟨t', hexec', -, hreceive, hrequest, hinflight, hregisters, hpending, -⟩ := execConvert_completes s
    obtain rfl := Host.Outcome.next.inj (hexec'.symm.trans hexec)
    exact ⟨.inl hregisters, .inr (.inl rfl), .inl hrequest, .inl hreceive,
      .inr ⟨⟨_, rfl⟩, execConvert_statusLegal hexec⟩, hinflight, hpending⟩
  · obtain ⟨hreceive, hrequest, hcleared, hpending, -⟩ := pipeStages_frame s.clearInflight rfl
    exact ⟨.inr (.inr rfl), .inr (.inr rfl), .inl hrequest, .inl hreceive,
      .inr ⟨⟨_, rfl⟩, pipeStages_statusLegal _⟩, hcleared, hpending⟩
  · exact ⟨.inl ⟨rfl, rfl⟩, .inl ⟨rfl, rfl⟩, .inl ⟨rfl, rfl, rfl, rfl, rfl⟩, .inl ⟨rfl, rfl⟩, .inl rfl, rfl, rfl⟩
  · obtain ⟨hregisters, hvelocities, hrequest, hinflight, hstatus, hpending, -⟩ := loadrx_frame bytes s
    have hafter : inflightAfter i s.inflight = s.inflight := by
      rcases inflightAfter_cases i s.inflight with ⟨_, _, _, _, rfl⟩ | rfl | hkept
      · cases hencode
      · cases hencode
      · exact hkept
    exact ⟨.inl hregisters, .inl hvelocities, .inl hrequest, .inr ⟨bytes, hencode⟩, .inl hstatus,
      hinflight.trans hafter.symm, hpending⟩

/-- No instruction faults: it completes or is refused. -/
theorem exec_completes_or_refused (i : Instr) (s : State) :
    (∃ t, exec i s = .next t) ∨ ∃ r, exec i s = .refused r := by
  cases i with
  | encode => exact .inl ⟨_, rfl⟩
  | decode =>
    obtain ⟨t, hexec, -⟩ := execDecode_completes s
    exact .inl ⟨t, hexec⟩
  | convert =>
    obtain ⟨t, hexec, -⟩ := execConvert_completes s
    exact .inl ⟨t, hexec⟩
  | pipe =>
    cases hinflight : s.inflight with
    | false => exact .inr ⟨_, execPipe_of_idle hinflight⟩
    | true => exact .inl ⟨_, execPipe_of_inflight hinflight⟩
  | cmdReserved w => exact .inr ⟨_, rfl⟩
  | frameReq | frameRsp | frameExc | frameIllegal | frameNone => exact .inl ⟨_, rfl⟩

end Sys2Proof.Machine

/-! PROOFS of the statements on an arrival and what DECODE and PIPE make of it (30_encoding.md section 4, 40_framecodec.md
sections 2 to 4, 42_pipeline.md sections 1 and 3). -/

namespace Sys2Proof.Machine

/-! ## The arrival (R92) -/

/-- A byte that has arrived within RXB's size is what RXB reads as. -/
theorem bufferByte_loadrx {bytes : List Byte} {offset : Nat} {b : Byte} (s : State) (hsize : offset < 263)
    (h : bytes[offset]? = some b) : bufferByte .rxb offset (loadrx bytes s) = b :=
  bufferByte_of_read (by rw [State.buffer_rxb, loadrx_read, if_pos hsize, h])

/-- The tests after the arrival of nine bytes or more: RXLEN's bound does not change them, since an even byteCount is at most
254 and 9 + 254 = 263. -/
theorem decodeTests_loadrx_header (m : Mbap) (fc bc : Byte) (rest : List Byte) (s : State) :
    decodeTests (loadrx (mbapBytes m ++ fc :: bc :: rest) s) =
      if fc.msb then .error (.protocolException bc)
      else if fc ≠ fcRead ∨ bc.toNat % 2 = 1 ∨ rest.length < bc.toNat then .error .malformedResponse
      else .ok (bc.toNat / 2) := by
  have hbc := bc.isLt
  have hlen : (loadrx (mbapBytes m ++ fc :: bc :: rest) s).rxlen.toNat = min (9 + rest.length) 263 := by
    rw [loadrx_rxlen_toNat, List.length_append, mbapBytes_length, List.length_cons, List.length_cons]
    omega
  have h7 := bufferByte_loadrx (bytes := mbapBytes m ++ fc :: bc :: rest) s (offset := 7) (by decide) rfl
  have h8 := bufferByte_loadrx (bytes := mbapBytes m ++ fc :: bc :: rest) s (offset := 8) (by decide) rfl
  have hcut : ¬bc.toNat % 2 = 1 → (min (9 + rest.length) 263 < 9 + bc.toNat ↔ rest.length < bc.toNat) := by omega
  simp only [decodeTests, responseTests, memRead1, offsetFunctionCode, offsetByteCount, responseMin, offsetData, h7, h8,
    hlen, ite_or]
  rw [if_neg (by omega), if_neg (by omega)]
  by_cases hodd : bc.toNat % 2 = 1
  · simp only [if_pos hodd]
  · simp only [if_neg hodd, hcut hodd]

/-- What the tests answer for a class of received sequences (R53). -/
def classTests : Instr → Except Failure Nat
  | .frameNone => .error .noResponse
  | .frameExc _ _ code _ => .error (.protocolException code)
  | .frameRsp _ values _ => .ok values.length
  | _ => .error .malformedResponse

/-- The class of a received sequence of any length decides the tests after its arrival. -/
theorem decodeTests_loadrx (bytes : List Byte) (s : State) :
    decodeTests (loadrx bytes s) = classTests (decodeReceived bytes) := by
  rcases Nat.eq_zero_or_pos bytes.length with h0 | hpos
  · rw [List.length_eq_zero_iff.1 h0]
    rfl
  rcases Nat.lt_or_ge bytes.length 9 with hshort | hlong
  · rw [decodeReceived_short hpos (by omega), decodeTests, responseTests, loadrx_rxlen_toNat, if_neg (by omega),
      if_pos (by rw [responseMin]; omega)]
    rfl
  obtain ⟨m, fc, bc, rest, rfl⟩ := exists_header hlong
  rw [decodeTests_loadrx_header, decodeReceived_header]
  split_ifs with hsign hillegal
  · rfl
  · rfl
  · simp only [not_or, Nat.not_lt] at hillegal
    rw [classTests, wordsOfBytes_length, List.length_take, Nat.min_eq_left hillegal.2.2]

/-- Value `i` of a response stands at offsets 9 + 2i and 10 + 2i (R71). -/
theorem responseBytes_getElem? (m : Mbap) (values : List S16) (trailing : List Byte) {i : Nat} (hi : i < values.length) :
    (responseBytes m values trailing)[9 + 2 * i]? = some (highByte values[i]) ∧
      (responseBytes m values trailing)[9 + 2 * i + 1]? = some (lowByte values[i]) := by
  obtain ⟨hhigh, hlow⟩ := bytesOfWords_getElem? values i
  have hdata : ∀ j, j < 2 * values.length →
      (responseBytes m values trailing)[9 + j]? = (bytesOfWords values)[j]? := by
    intro j hj
    rw [responseBytes, List.getElem?_append_right (by rw [mbapBytes_length]; omega), mbapBytes_length,
      show 9 + j - 7 = j + 1 + 1 by omega, List.getElem?_cons_succ, List.getElem?_cons_succ,
      List.getElem?_append_left (by rw [bytesOfWords_length]; exact hj)]
  rw [Nat.add_assoc, hdata _ (by omega), hdata _ (by omega), hhigh, hlow, List.getElem?_eq_getElem hi]
  exact ⟨rfl, rfl⟩

/-- After the arrival of a response the values to be decoded are its own. -/
theorem receivedValue_responseBytes (m : Mbap) {values : List S16} (trailing : List Byte) (s : State)
    (hlen : values.length ≤ 127) {i : Nat} (hi : i < values.length) :
    receivedValue (loadrx (responseBytes m values trailing) s) i = values[i] := by
  obtain ⟨hhigh, hlow⟩ := responseBytes_getElem? m values trailing hi
  refine memRead2_of_read (buf := .rxb) (offset := 9 + 2 * i) ?_ ?_
  · rw [State.buffer_rxb, loadrx_read, if_pos (by omega), hhigh]
  · rw [State.buffer_rxb, loadrx_read, if_pos (by omega), hlow]

theorem decodeTests_responseBytes (m : Mbap) {values : List S16} (trailing : List Byte) (s : State)
    (hlen : values.length ≤ 127) : decodeTests (loadrx (responseBytes m values trailing) s) = .ok values.length := by
  rw [decodeTests_loadrx, decodeReceived_responseBytes m trailing hlen, classTests]

/-! ## DECODE reads received bytes only -/

/-- A well-formed response's values lie within the received bytes. -/
theorem decodeTests_ok_bound {s : State} {n : Nat} (h : decodeTests s = .ok n) : 9 + 2 * n ≤ s.rxlen.toNat := by
  rcases responseTests_cases s.rxlen.toNat (memRead1 .rxb offsetFunctionCode s) (memRead1 .rxb offsetByteCount s) with
    ⟨_, h'⟩ | ⟨_, _, h'⟩ | ⟨_, _, h'⟩ | ⟨_, _, _, h'⟩ | ⟨hlen, _, _, h'⟩ <;> rw [decodeTests, h'] at h
  iterate 4 cases h
  have := Except.ok.inj h
  omega

/-- The tests fail with one of three failures (R98). -/
theorem decodeTests_error_cases {s : State} {k : Failure} (h : decodeTests s = .error k) :
    k = .noResponse ∨ k = .malformedResponse ∨ ∃ code, k = .protocolException code := by
  rcases responseTests_cases s.rxlen.toNat (memRead1 .rxb offsetFunctionCode s) (memRead1 .rxb offsetByteCount s) with
    ⟨_, h'⟩ | ⟨_, _, h'⟩ | ⟨_, _, h'⟩ | ⟨_, _, _, h'⟩ | ⟨_, _, _, h'⟩ <;> rw [decodeTests, h'] at h <;> cases h
  · exact .inl rfl
  · exact .inr (.inl rfl)
  · exact .inr (.inr ⟨_, rfl⟩)
  · exact .inr (.inl rfl)

section SameReceivedBytes

variable {s s' : State}
  (hbytes : ∀ offset, 7 ≤ offset → offset < s.rxlen.toNat → bufferByte .rxb offset s' = bufferByte .rxb offset s)

include hbytes

theorem receivedValue_congr_of_received {n i : Nat} (htests : decodeTests s = .ok n) (hi : i < n) :
    receivedValue s' i = receivedValue s i := by
  have hbound := decodeTests_ok_bound htests
  have hhigh := hbytes (9 + 2 * i) (by omega) (by omega)
  have hlow := hbytes (9 + 2 * i + 1) (by omega) (by omega)
  exact congrArg₂ joinBytes hhigh hlow

/-- The bytes at offsets 7 and 8 decide only when they have been received (R38). -/
theorem decodeTests_congr_of_received (hlen : s'.rxlen = s.rxlen) : decodeTests s' = decodeTests s := by
  rcases Nat.lt_or_ge s.rxlen.toNat 9 with hshort | hlong
  · simp only [decodeTests, responseTests, responseMin, hlen, if_pos hshort]
  · exact decodeTests_congr hlen (hbytes 7 (by decide) (by omega)) (hbytes 8 (by decide) (by omega))

end SameReceivedBytes

/-- Two's complement (R70): 65536 less from 0x80 in the high byte on. -/
theorem receivedValue_toInt (s : State) (i : Nat) :
    (receivedValue s i).toInt = wireInt (bufferByte .rxb (9 + 2 * i) s) (bufferByte .rxb (10 + 2 * i) s) := by
  have hlow := (bufferByte .rxb (10 + 2 * i) s).isLt
  rw [BitVec.toInt_eq_toNat_cond, receivedValue_toNat, wireInt]
  split_ifs <;> push_cast <;> omega

/-! ## The obligations -/

/-- Settles O9: a DECODE that ends OK holds the received values, which are read as two's complement. -/
theorem decodedValuesSigned : Obligations.DecodedValuesSigned := by
  intro s t h hok i hi hcount
  rcases execDecode_next h with ⟨n, -, hn, rfl⟩ | ⟨k, -, rfl⟩
  · rw [finishOk_rvcnt, s.setRegisters_rvcnt_toNat _ hn] at hcount
    rw [← receivedValue_toInt, ← s.setRegisters_getElem (receivedValue s) hcount hi]
    rfl
  · rw [(raiseFailure_reports k .decode false s).1] at hok
    exact absurd hok k.kind_ne_ok

/-- Settles O10: the tests and the values read the received bytes from offset 7 on. -/
theorem decodeReadsFromOffsetSeven : Obligations.DecodeReadsFromOffsetSeven := by
  intro s s' t t' hlen hbytes h h'
  have htests := decodeTests_congr_of_received hbytes hlen
  rcases execDecode_next h with ⟨n, hn, hle, rfl⟩ | ⟨k, hk, rfl⟩ <;>
    rcases execDecode_next h' with ⟨n', hn', -, rfl⟩ | ⟨k', hk', rfl⟩
  · obtain rfl : n = n' := by rw [hn, hn'] at htests; exact (Except.ok.inj htests).symm
    refine ⟨rfl, rfl, fun i hi hcount => ?_⟩
    rw [finishOk_rvcnt, s.setRegisters_rvcnt_toNat _ hle] at hcount
    simp only [finishOk_rv, State.setRegisters_getElem _ _ hcount]
    exact receivedValue_congr_of_received hbytes hn hcount
  · rw [hn, hk'] at htests
    cases htests
  · rw [hk, hn'] at htests
    cases htests
  · obtain rfl : k = k' := by rw [hk, hk'] at htests; exact (Except.error.inj htests).symm
    exact ⟨rfl, rfl, fun i hi hcount => absurd hcount (Nat.not_lt_zero i)⟩

/-- Settles O11: the tests after the arrival answer the number of values, and the received values are the response's. -/
theorem responseRoundTrip : Obligations.ResponseRoundTrip := by
  intro m values trailing s hlen
  obtain ⟨t, hdecode, houtcome, -⟩ := execDecode_completes (loadrx (responseBytes m values trailing) s)
  rw [decodeTests_responseBytes m trailing s hlen] at houtcome
  obtain ⟨hok, hcount, hvalues⟩ := houtcome
  exact ⟨_, t, rfl, hdecode, hok, hcount, fun i hi hi' =>
    (hvalues i hi' hi).trans (receivedValue_responseBytes m trailing s hlen hi)⟩

/-- Settles O12: the class decides the tests, and a response is the encoding of its row. -/
theorem receivedClassDecidesOutcome : Obligations.ReceivedClassDecidesOutcome := by
  intro bytes s
  obtain ⟨t, hdecode, houtcome, -⟩ := execDecode_completes (loadrx bytes s)
  refine ⟨_, t, exec_decodeReceived bytes s, hdecode, ?_⟩
  rw [decodeTests_loadrx] at houtcome
  obtain ⟨hwf, hencode⟩ := encode_decodeReceived bytes
  rcases decodeReceived_class bytes with hclass | hclass | ⟨m, low, code, trailing, hclass⟩ |
    ⟨m, values, trailing, hclass⟩ <;> rw [hclass] at houtcome hwf hencode ⊢
  · exact houtcome.1
  · exact houtcome.1
  · exact houtcome.1
  · obtain ⟨hok, hcount, hvalues⟩ := houtcome
    refine ⟨hok, hcount, fun i hi hi' => ?_⟩
    rw [hvalues i hi' hi, ← Code.received.inj hencode]
    exact receivedValue_responseBytes m trailing s (of_decide_eq_true hwf) hi

/-- Settles O25: the tests answer the number of values, which is QTY, so that PIPE converts the response's values. -/
theorem pipeOnMatchingResponse : Obligations.PipeOnMatchingResponse := by
  intro m values trailing s a h12 hlen hinflight hqty h
  obtain rfl := Host.Outcome.next.inj ((exec_of_encode_received rfl s).symm.trans h)
  obtain ⟨t, hpipe, houtcome, -, -, hcleared, -⟩ :=
    execPipe_completes (s := loadrx (responseBytes m values trailing) s) hinflight
  rw [decodeTests_responseBytes m trailing s hlen] at houtcome
  obtain ⟨-, -, hlater⟩ := houtcome
  have hmatch : ¬values.length ≠ (loadrx (responseBytes m values trailing) s).qty.toNat := not_not.2 hqty.symm
  rw [if_neg hmatch, if_neg (Nat.not_lt.2 h12)] at hlater
  obtain ⟨hok, hvalid, hlanes⟩ := hlater
  refine ⟨t, hpipe, ?_, hvalid, hcleared, fun k hk => ?_⟩
  · exact State.ReportsOk.status_eq hok ((execPipe_next hpipe).2 ▸ pipeStages_statusLegal _)
  · rw [hlanes k hk, receivedValue_responseBytes m trailing s hlen, receivedValue_responseBytes m trailing s hlen]

/-- Settles O29: every such instruction is LOADRX of its bytes, whose frame is `loadrx_frame`. -/
theorem arrivalLoadsReceiveBuffer : Obligations.ArrivalLoadsReceiveBuffer := by
  intro i bytes s h
  refine ⟨_, exec_of_encode_received h s, loadrx_rxlen_toNat bytes s, fun offset hlt hsize => ?_, loadrx_frame bytes s⟩
  rw [loadrx_read, if_pos hsize, List.getElem?_eq_getElem hlt]

end Sys2Proof.Machine

/-! PROOFS of the statements on single operations: the buffers' primitives (20_memory.md R35), repetition (20_memory.md R39),
the lanes of CONVERT (R75), the send (R94), the outcomes (60_exceptions.md section 1) and the commands after RESET (R118). -/

namespace Sys2Proof.Machine

/-! ## MemRead and MemWrite -/

theorem read_memWrite1 (buf : Buffer) (offset : Nat) (v : U8) (s : State) (other : Nat) :
    Memory.read ((memWrite1 buf offset v s).buffer buf) other =
      if other = offset then some v else Memory.read (s.buffer buf) other := by
  cases buf <;> exact Memory.read_write _ offset other v

/-- The high byte stands at the offset and the low byte after it; the second write is at another offset than the first. -/
theorem read_memWrite2 (buf : Buffer) (offset : Nat) (v : U16) (s : State) (other : Nat) :
    Memory.read ((memWrite2 buf offset v s).buffer buf) other =
      if other = offset then some (highByte v)
      else if other = offset + 1 then some (lowByte v)
      else Memory.read (s.buffer buf) other := by
  rw [memWrite2, read_memWrite1, read_memWrite1]
  by_cases h : other = offset
  · rw [if_neg (by omega), if_pos h, if_pos h]
  · rw [if_neg h, if_neg h]

theorem buffer_memWrite1_ne {buf buf' : Buffer} (offset : Nat) (v : U8) (s : State) (h : buf' ≠ buf) :
    (memWrite1 buf offset v s).buffer buf' = s.buffer buf' := by
  cases buf with
  | txb =>
    cases buf' with
    | txb => exact absurd rfl h
    | rxb => rfl
  | rxb =>
    cases buf' with
    | txb => rfl
    | rxb => exact absurd rfl h

theorem sameOutsideBuffers_memWrite1 (buf : Buffer) (offset : Nat) (v : U8) (s : State) :
    SameOutsideBuffers s (memWrite1 buf offset v s) := by
  cases buf <;> simp [SameOutsideBuffers, SameRegisters, SameVelocities, SameHost]

theorem sameOutsideBuffers_memWrite2 (buf : Buffer) (offset : Nat) (v : U16) (s : State) :
    SameOutsideBuffers s (memWrite2 buf offset v s) := by
  cases buf <;> simp [memWrite2, SameOutsideBuffers, SameRegisters, SameVelocities, SameHost]

theorem highByte_eq_ofNat (v : U16) : highByte v = BitVec.ofNat 8 (v.toNat / 256) := extractLsb'_eq_ofNat_div 8 8 v

theorem lowByte_eq_ofNat (v : U16) : lowByte v = BitVec.ofNat 8 v.toNat := by
  rw [lowByte, extractLsb'_eq_ofNat_div, Nat.pow_zero, Nat.div_one]

/-- Settles O5: a read after one write, and the high and the low byte as numbers. -/
theorem bufferPrimitives : Obligations.BufferPrimitives := by
  intro buf offset s
  refine ⟨rfl, joinBytes_toNat _ _, fun v other => read_memWrite1 buf offset v s other, fun v other => ?_,
    fun v buf' h => buffer_memWrite1_ne offset v s h, fun v buf' h => ?_,
    fun v => sameOutsideBuffers_memWrite1 buf offset v s, fun v => sameOutsideBuffers_memWrite2 buf offset v s⟩
  · rw [read_memWrite2, highByte_eq_ofNat, lowByte_eq_ofNat]
  · rw [memWrite2, buffer_memWrite1_ne _ _ _ h, buffer_memWrite1_ne _ _ _ h]

/-! ## CONVERT -/

/-- A velocity after a CONVERT of at least twelve values is its lane's pair conversion. -/
theorem execConvert_vel {s t : State} (h : exec .convert s = .next t) (hcount : 12 ≤ s.rvcnt.toNat) {k : Nat} (hk : k < 6) :
    t.vel[k] = lane s ⟨k, hk⟩ := by
  rcases execConvert_next h with ⟨-, rfl⟩ | ⟨hfew, -⟩
  · exact s.setVelocities_getElem (lane s) hk
  · omega

/-- Settles O14: a lane is the pair conversion of its two registers. -/
theorem lanesIndependent : Obligations.LanesIndependent := by
  intro s s' t t' k hk hcount hcount' hinteger hfraction h h'
  rw [execConvert_vel h hcount hk, execConvert_vel h' hcount' hk]
  exact congrArg₂ pairconv hinteger hfraction

/-- Settles O33: CONVERT leaves the registers, so that the second one takes the same path on the same values. -/
theorem convertIdempotent : Obligations.ConvertIdempotent := by
  intro s t h
  rcases execConvert_next h with ⟨hcount, rfl⟩ | ⟨hcount, rfl⟩
  · rcases execConvert_cases (finishOk (s.setVelocities (lane s))) with ⟨-, hexec⟩ | ⟨hfew, -⟩
    · exact ⟨_, hexec, rfl, rfl, fun _ => rfl⟩
    · exact absurd hfew (Nat.not_lt.2 hcount)
  · rcases execConvert_cases (raiseFailure .invalidRegisterCount .convert false s) with ⟨hmany, -⟩ | ⟨-, hexec⟩
    · exact absurd hcount (Nat.not_lt.2 hmany)
    · exact ⟨_, hexec, rfl, rfl, fun hvalid => absurd hvalid Bool.false_ne_true⟩

/-! ## DECODE again -/

/-- A received byte of a legal RXB is listed, so that it reads the same on any occasion. -/
theorem bufferByte_of_receiveLegal {s t : State} (h : s.ReceiveLegal) (hrxb : t.rxb = s.rxb) {offset : Nat}
    (hoffset : offset < s.rxlen.toNat) : bufferByte .rxb offset t = bufferByte .rxb offset s := by
  obtain ⟨-, -, hlisted⟩ := h
  obtain ⟨b, hb⟩ := Option.isSome_iff_exists.1 ((hlisted offset).trans (decide_eq_true hoffset))
  rw [bufferByte_of_read (buf := .rxb) hb, bufferByte_of_read (buf := .rxb) (hrxb ▸ hb)]

/-- Settles O32: DECODE leaves RXB and RXLEN, and its outcome depends on the received bytes. -/
theorem decodeIdempotent : Obligations.DecodeIdempotent := by
  intro s t hlegal h
  obtain ⟨hrxlen, hrxb⟩ := (execFrame h).receive.resolve_right fun ⟨_, hencode⟩ => nomatch hencode
  obtain ⟨u, hagain, -⟩ := execDecode_completes t
  exact ⟨u, hagain, decodeReadsFromOffsetSeven s t t u hrxlen
    (fun offset _ hoffset => bufferByte_of_receiveLegal hlegal hrxb hoffset) h hagain⟩

/-! ## Outcomes -/

/-- Settles O34: PIPE leaves INFLIGHT 0. -/
theorem secondPipeRefused : Obligations.SecondPipeRefused :=
  fun _ _ h => execPipe_of_idle (execFrame h).inflight

/-- Settles O30: the bytes handed over are those of the frame, and the block's elements are not written. -/
theorem requestLeavesUnchanged : Obligations.RequestLeavesUnchanged := by
  intro tid uid addr qty s
  exact ⟨_, exec_frameReq tid uid addr qty s, ⟨_, rfl, decodeRequest_requestBytes tid uid addr qty⟩,
    by simp [SameBlock, SameRegisters, SameVelocities, SameRequest, SameReceive], rfl⟩

theorem execEncode_reportsOk (tid : U16) (uid : U8) (addr qty : U16) (s : State) :
    (finishOk ((storeRequest tid uid addr qty s).latchRequest tid uid addr qty)).ReportsOk :=
  ⟨finishOk_kind _, finishOk_exc _⟩

/-- The three failures of the decode tests, as STATUS reports them. -/
abbrev State.ReportsDecodeFailure (s : State) : Prop :=
  s.Reports .noResponse ∨ s.Reports .malformedResponse ∨ ∃ code, s.Reports (.protocolException code)

theorem State.Reports.decodeFailure {s t : State} {k : Failure} (h : t.Reports k) (htests : decodeTests s = .error k) :
    t.ReportsDecodeFailure := by
  rcases decodeTests_error_cases htests with rfl | rfl | ⟨code, rfl⟩
  · exact .inl h
  · exact .inr (.inl h)
  · exact .inr (.inr ⟨code, h⟩)

/-- PIPE's convert stage fails on a count below twelve, which the count check has found equal to QTY. -/
theorem pipeStages_reports (s : State) :
    (pipeStages s).ReportsOk ∨ (pipeStages s).ReportsDecodeFailure ∨
      ((pipeStages s).Reports .invalidRegisterCount ∧ s.qty.toNat < 12) := by
  rcases pipeStages_cases s with ⟨k, htests, hend⟩ | ⟨n, d, -, -, -, ⟨-, hend⟩ | ⟨hqty, hfew, hend⟩ | ⟨-, -, hend⟩⟩ <;>
    rw [hend]
  · exact .inr (.inl ((raiseFailure_reports k .decode true s).decodeFailure htests))
  · exact .inr (.inl (.inr (.inl (raiseFailure_reports .malformedResponse .count true d))))
  · exact .inr (.inr ⟨raiseFailure_reports .invalidRegisterCount .convert true d, hqty ▸ hfew⟩)
  · exact .inl ⟨finishOk_kind _, finishOk_exc _⟩

/-- Settles O43: each operation's cases; an arrival and a send are no commands, so that they leave STATUS. -/
theorem outcomesPossible : Obligations.OutcomesPossible := by
  intro i s t h
  have hstatus : (∀ word, encode i ≠ .command word) → t.status = s.status := fun hne =>
    (execFrame h).status.resolve_right fun ⟨⟨word, hencode⟩, _⟩ => hne word hencode
  cases i with
  | encode tid uid addr qty =>
    obtain rfl := Host.Outcome.next.inj ((exec_encode tid uid addr qty s).symm.trans h)
    exact execEncode_reportsOk tid uid addr qty s
  | decode =>
    rcases execDecode_next h with ⟨n, -, -, rfl⟩ | ⟨k, htests, rfl⟩
    · exact .inl ⟨finishOk_kind _, finishOk_exc _⟩
    · exact .inr ((raiseFailure_reports k .decode false s).decodeFailure htests)
  | convert =>
    rcases execConvert_next h with ⟨-, rfl⟩ | ⟨-, rfl⟩
    · exact .inl ⟨finishOk_kind _, finishOk_exc _⟩
    · exact .inr (raiseFailure_reports _ .convert false s)
  | pipe =>
    obtain ⟨-, rfl⟩ := execPipe_next h
    simpa only [or_assoc, State.clearInflight_qty] using pipeStages_reports s.clearInflight
  | cmdReserved word => cases h
  | frameReq | frameRsp | frameExc | frameIllegal | frameNone => exact hstatus fun _ hencode => nomatch hencode

/-- Settles O37: with INFLIGHT, RVCNT and RXLEN 0 the operations' first tests decide. -/
theorem firstCommandsAfterReset : Obligations.FirstCommandsAfterReset := by
  rintro s ⟨hrvcnt, -, hinflight, hrxlen, -⟩
  refine ⟨fun tid uid addr qty => ⟨_, exec_encode tid uid addr qty s, execEncode_reportsOk tid uid addr qty s⟩, ?_, ?_,
    execPipe_of_idle hinflight⟩
  · obtain ⟨t, hexec, houtcome, -⟩ := execDecode_completes s
    rw [decodeTests_eq, hrxlen] at houtcome
    exact ⟨t, hexec, houtcome.1⟩
  · obtain ⟨t, hexec, ⟨hcount, -⟩ | ⟨-, hreports, -⟩, -⟩ := execConvert_completes s
    · rw [hrvcnt] at hcount
      exact absurd hcount (by decide)
    · exact ⟨t, hexec, hreports⟩

end Sys2Proof.Machine

/-! PROOFS of the statements on the whole machine's steps (10_state.md section 1, 20_memory.md section 6, 42_pipeline.md
sections 3 and 4, 70_reset_and_hazards.md): RESET, host reads, the script, who writes what, where a step stops. -/

namespace Sys2Proof.Machine

/-! ## A step by its next host action -/

/-- What a completed step did: nothing to the block (idle, a send or a read), a command, an arrival, or RESET. The action is
gone from the script. -/
theorem step_kinds {s t : State} (h : step s = .next t) :
    ((s.pending = [] ∨ s.NextIs .send ∨ ∃ e, s.NextIs (.read e)) ∧ SameBlock s t) ∨
      (∃ word, s.NextIs (.command word) ∧ exec (decodeCommand word) (s.setPending s.pending.tail) = .next t) ∨
      (∃ bytes, s.NextIs (.loadrx bytes) ∧ t = loadrx bytes (s.setPending s.pending.tail)) ∨
      (s.NextIs .reset ∧ t = resetBlock (s.setPending s.pending.tail)) := by
  rcases step_cases h with ⟨hnil, rfl⟩ | ⟨a, rest, hpending, hcase⟩
  · exact .inl ⟨.inl hnil, by simp [SameBlock, SameRegisters, SameVelocities, SameRequest, SameReceive]⟩
  have hnext : s.NextIs a := by rw [State.NextIs, hpending, List.head?_cons]
  rw [hpending, List.tail_cons]
  rcases hcase with ⟨word, rfl, hexec⟩ | ⟨bytes, rfl, hexec⟩ | ⟨rfl, rfl⟩ | ⟨haction, v, rfl⟩
  · exact .inr (.inl ⟨word, hnext, hexec⟩)
  · have ht := Host.Outcome.next.inj (hexec.symm.trans (exec_decodeReceived bytes _))
    exact .inr (.inr (.inl ⟨bytes, hnext, ht⟩))
  · exact .inr (.inr (.inr ⟨hnext, rfl⟩))
  · refine .inl ⟨.inr ?_, by simp [SameBlock, SameRegisters, SameVelocities, SameRequest, SameReceive]⟩
    rcases haction with rfl | ⟨e, rfl⟩
    · exact .inl hnext
    · exact .inr ⟨e, hnext⟩

theorem State.NextIs.unique {s : State} {a b : HostAction} (h : s.NextIs a) (h' : s.NextIs b) : a = b :=
  Option.some.inj (h.symm.trans h')

/-- Two commands that are next are the same instruction. -/
theorem State.NextCommands.eq {s : State} {i : Instr} {word : CommandWord} (h : s.NextCommands i)
    (hword : s.NextIs (.command word)) : decodeCommand word = i := by
  obtain ⟨word', hnext, hdecode⟩ := h
  cases hnext.unique hword
  exact hdecode

/-- A next action that is no command presents none. -/
theorem State.NextIs.not_nextCommands {s : State} {a : HostAction} {i : Instr} (h : s.NextIs a)
    (ha : ∀ word, a ≠ .command word) : ¬s.NextCommands i :=
  fun ⟨word, hnext, _⟩ => ha word (h.unique hnext)

theorem not_nextCommands_of_quiet {s : State} {i : Instr}
    (h : s.pending = [] ∨ s.NextIs .send ∨ ∃ e, s.NextIs (.read e)) : ¬s.NextCommands i := by
  rcases h with hnil | hsend | ⟨e, hread⟩
  · rintro ⟨word, hnext, -⟩
    rw [State.NextIs, hnil] at hnext
    cases hnext
  · exact hsend.not_nextCommands fun _ => HostAction.noConfusion
  · exact hread.not_nextCommands fun _ => HostAction.noConfusion

theorem not_nextReset_of_quiet {s : State} (h : s.pending = [] ∨ s.NextIs .send ∨ ∃ e, s.NextIs (.read e)) :
    ¬s.NextIs .reset := by
  intro hreset
  rcases h with hnil | hsend | ⟨e, hread⟩
  · rw [State.NextIs, hnil] at hreset
    cases hreset
  · cases hreset.unique hsend
  · cases hreset.unique hread

/-! ## RESET and host reads -/

/-- Settles O35. -/
theorem resetSetsElements : Obligations.ResetSetsElements := by
  intro s rest hpending
  obtain ⟨hreset, htxb, hrxb, ⟨hrest, -⟩, -⟩ := resetBlock_spec (s.setPending rest)
  refine ⟨_, step_of_cons hpending, hreset, hrest, fun offset => ?_⟩
  rw [htxb, hrxb]
  exact ⟨rfl, rfl⟩

/-- Settles O36. -/
theorem resetStateHoldsValues : Obligations.ResetStateHoldsValues := by
  unfold Obligations.ResetStateHoldsValues
  decide

/-- The host reads a listed byte within the buffer. -/
theorem readByte_of_read {buf : Buffer} {offset : Nat} {s : State} {b : Byte} (hsize : offset < buf.size)
    (h : Memory.read (s.buffer buf) offset = some b) : readByte buf offset s = .ok (.byte b) := by
  rw [readByte, if_pos hsize, memRead1, bufferByte_of_read h]

/-- A step that reads an element hands over what `readElement` gives. -/
theorem step_read {s : State} {e : Element} {rest : List HostAction} {v : HostValue}
    (hpending : s.pending = .read e :: rest) (h : readElement e (s.setPending rest) = .ok v) :
    ∃ t, step s = .next t ∧ t.hostView = some v ∧ SameBlock s t ∧ t.pending = rest := by
  refine ⟨((s.setPending rest).handOver v).tick, ?_, rfl, ?_, rfl⟩
  · rw [step_of_cons hpending, perform_read, readAction, h]
  · simp [SameBlock, SameRegisters, SameVelocities, SameRequest, SameReceive]

/-- Settles O38, by the element. -/
theorem hostReadsValidElements : Obligations.HostReadsValidElements := by
  intro e s rest v hpending hvalid
  refine step_read hpending ?_
  cases e with
  | rv i =>
    obtain ⟨hi, rfl⟩ := hvalid
    exact congrArg (fun w => Except.ok (HostValue.word w)) (if_pos hi)
  | vel k =>
    obtain ⟨hk, rfl⟩ := hvalid
    exact congrArg (fun x => Except.ok (HostValue.float x)) (if_pos hk)
  | txb offset =>
    obtain ⟨hsize, b, hb, rfl⟩ := hvalid
    exact readByte_of_read (buf := .txb) hsize hb
  | rxb offset =>
    obtain ⟨hlen, hsize, b, hb, rfl⟩ := hvalid
    exact (if_pos (.inl hlen)).trans (readByte_of_read (buf := .rxb) hsize hb)
  | rvcnt | velvalid | tid | uid | addr | qty | inflight | rxlen | status =>
    cases hvalid
    rfl

/-! ## The script -/

/-- Settles O40: no action writes the script. -/
theorem stepsFollowScript : Obligations.StepsFollowScript := by
  intro s t h
  rcases step_cases h with ⟨hnil, rfl⟩ | ⟨a, rest, hpending, hcase⟩
  · exact ⟨by rw [hnil, List.tail_nil], fun _ => rfl⟩
  refine ⟨?_, fun hnil => absurd (hpending.symm.trans hnil) (List.cons_ne_nil a rest)⟩
  rw [hpending, List.tail_cons]
  rcases hcase with ⟨word, -, hexec⟩ | ⟨bytes, -, hexec⟩ | ⟨-, rfl⟩ | ⟨-, v, rfl⟩
  · exact (execFrame hexec).pending
  · exact (execFrame hexec).pending
  · rfl
  · rfl

/-! ## Where a step stops -/

theorem readElement_error {e : Element} {s : State} {r : Fault} (h : readElement e s = .error r) :
    ∃ buf offset, buf.size ≤ offset ∧ r = .noSuchByte buf offset ∧
      (e = .txb offset ∧ buf = .txb ∨ e = .rxb offset ∧ buf = .rxb) := by
  have hbyte : ∀ buf offset, readByte buf offset s = .error r → buf.size ≤ offset ∧ r = .noSuchByte buf offset := by
    intro buf offset hread
    rw [readByte] at hread
    split_ifs at hread with hsize
    exact ⟨Nat.not_lt.1 hsize, (Except.error.inj hread).symm⟩
  cases e with
  | txb offset =>
    obtain ⟨hsize, hr⟩ := hbyte .txb offset h
    exact ⟨.txb, offset, hsize, hr, .inl ⟨rfl, rfl⟩⟩
  | rxb offset =>
    rw [readElement] at h
    split_ifs at h
    obtain ⟨hsize, hr⟩ := hbyte .rxb offset h
    exact ⟨.rxb, offset, hsize, hr, .inr ⟨rfl, rfl⟩⟩
  | rv | rvcnt | vel | velvalid | tid | uid | addr | qty | inflight | rxlen | status => cases h

/-- Settles O28: a command completes or is refused, in the two ways of R96; a read completes or faults; the rest
completes. -/
theorem stepStopsOnlyWhere : Obligations.StepStopsOnlyWhere := by
  intro s
  cases hpending : s.pending with
  | nil => exact .inl ⟨s, step_of_nil hpending⟩
  | cons a rest =>
    have hnext : s.NextIs a := by rw [State.NextIs, hpending, List.head?_cons]
    rw [step_of_cons hpending]
    cases a with
    | reset => exact .inl ⟨_, rfl⟩
    | command word =>
      rw [perform_command]
      rcases exec_completes_or_refused (decodeCommand word) (s.setPending rest) with hnextState | ⟨r, hrefused⟩
      · exact .inl hnextState
      rcases (exec_refused_iff _ _ r).1 hrefused with ⟨w, hw, rfl⟩ | ⟨hw, hidle, rfl⟩
      · obtain ⟨hreserved, rfl⟩ := (decodeCommand_eq_cmdReserved_iff word w).1 hw
        exact .inr (.inl ⟨word, hnext, hreserved, hrefused⟩)
      · rw [decodeCommand_eq_pipe_iff] at hw
        exact .inr (.inr (.inl ⟨hw ▸ hnext, hidle, hrefused⟩))
    | loadrx bytes => exact .inl ⟨_, exec_decodeReceived bytes _⟩
    | send =>
      rcases perform_send (s.setPending rest) with ⟨tid, uid, addr, qty, -, hsend⟩ | ⟨r, -, hsend⟩
      · exact .inl ⟨_, hsend⟩
      · exact .inl ⟨_, hsend⟩
    | read e =>
      rw [perform_read]
      rcases readAction_cases e (s.setPending rest) with ⟨v, -, hread⟩ | ⟨r, herror, hread⟩
      · exact .inl ⟨_, hread⟩
      obtain ⟨buf, offset, hsize, rfl, hwhich⟩ := readElement_error herror
      refine .inr (.inr (.inr ⟨buf, offset, hsize, hread, ?_⟩))
      rcases hwhich with ⟨rfl, hbuf⟩ | ⟨rfl, hbuf⟩
      · exact .inl ⟨hnext, hbuf⟩
      · exact .inr ⟨hnext, hbuf⟩

/-! ## Who writes what -/

/-- Settles O41, by the kind of step. -/
theorem elementWriters : Obligations.ElementWriters := by
  intro s t h
  rcases step_kinds h with ⟨-, hregisters, hvelocities, hrequest, -, hreceive, hstatus⟩ | ⟨word, hnext, hexec⟩ |
    ⟨bytes, hnext, rfl⟩ | ⟨hnext, -⟩
  · exact ⟨absurd hregisters, absurd hvelocities, absurd hrequest, absurd hreceive, absurd hstatus⟩
  · have hframe := execFrame hexec
    have hcommands : ∀ {i}, decodeCommand word = i → s.NextCommands i := fun hi => ⟨word, hnext, hi⟩
    have hnoArrival : ¬∃ bytes, encode (decodeCommand word) = .received bytes := by
      rintro ⟨bytes, hencode⟩
      rw [(encode_decodeCommand word).2] at hencode
      cases hencode
    refine ⟨fun hne => ?_, fun hne => ?_, fun hne => ?_, absurd (hframe.receive.resolve_right hnoArrival),
      fun _ => .inl ⟨word, hnext⟩⟩
    · rcases hframe.registers.resolve_left hne with hi | hi
      · exact .inl (hcommands hi)
      · exact .inr (.inl (hcommands hi))
    · rcases hframe.velocities.resolve_left hne with hi | hi
      · exact .inl (hcommands hi)
      · exact .inr (.inl (hcommands hi))
    · obtain ⟨tid, uid, addr, qty, hi⟩ := hframe.request.resolve_left hne
      exact .inl ⟨tid, uid, addr, qty, hcommands hi⟩
  · obtain ⟨hregisters, hvelocities, hrequest, -, hstatus, -⟩ := loadrx_frame bytes (s.setPending s.pending.tail)
    exact ⟨absurd hregisters, absurd hvelocities, absurd hrequest, fun _ => .inl ⟨bytes, hnext⟩, absurd hstatus⟩
  · exact ⟨fun _ => .inr (.inr hnext), fun _ => .inr (.inr hnext), fun _ => .inr hnext, fun _ => .inr hnext,
      fun _ => .inr hnext⟩

/-- INFLIGHT after a step: kept, or as the command that is next leaves it, or cleared by RESET. -/
theorem step_inflight {s t : State} (h : step s = .next t) :
    (t.inflight = s.inflight ∧ (∀ i, ¬s.NextCommands i) ∧ ¬s.NextIs .reset) ∨
      (∃ word, s.NextIs (.command word) ∧ t.inflight = inflightAfter (decodeCommand word) s.inflight ∧
        (decodeCommand word = .pipe → s.inflight = true)) ∨
      (s.NextIs .reset ∧ t.inflight = false) := by
  rcases step_kinds h with ⟨hquiet, -, -, -, hinflight, -⟩ | ⟨word, hnext, hexec⟩ | ⟨bytes, hnext, rfl⟩ | ⟨hnext, rfl⟩
  · exact .inl ⟨hinflight, fun _ => not_nextCommands_of_quiet hquiet, not_nextReset_of_quiet hquiet⟩
  · refine .inr (.inl ⟨word, hnext, (execFrame hexec).inflight, fun hpipe => ?_⟩)
    rw [hpipe] at hexec
    exact (execPipe_next hexec).1
  · exact .inl ⟨rfl, fun _ => hnext.not_nextCommands fun _ => HostAction.noConfusion,
      fun hreset => nomatch hnext.unique hreset⟩
  · exact .inr (.inr ⟨hnext, rfl⟩)

/-- Settles O42, by what the step did to INFLIGHT. -/
theorem inflightEvents : Obligations.InflightEvents := by
  intro s t h
  rcases step_inflight h with ⟨hkept, hnone, hnoReset⟩ | ⟨word, hnext, hafter, hpipe⟩ | ⟨hnext, hcleared⟩
  · rw [hkept]
    exact ⟨fun h0 h1 => absurd (h0.symm.trans h1) Bool.false_ne_true,
      fun h1 h0 => absurd (h0.symm.trans h1) Bool.false_ne_true, fun _ _ _ _ hc => absurd hc (hnone _),
      fun hc => absurd hc (hnone _), fun hr => absurd hr hnoReset⟩
  · rw [hafter]
    refine ⟨fun h0 h1 => ?_, fun h1 h0 => ?_, fun _ _ _ _ hc => congrArg (inflightAfter · _) (hc.eq hnext),
      fun hc => ⟨hpipe (hc.eq hnext), congrArg (inflightAfter · _) (hc.eq hnext)⟩, fun hr => nomatch hnext.unique hr⟩
    · rw [h0] at h1
      obtain ⟨tid, uid, addr, qty, hencode⟩ := eq_encode_of_inflightAfter h1
      exact ⟨tid, uid, addr, qty, word, hnext, hencode⟩
    · rw [h1] at h0
      exact .inl ⟨word, hnext, eq_pipe_of_inflightAfter h0⟩
  · have hnone : ∀ i, ¬s.NextCommands i := fun _ => hnext.not_nextCommands fun _ => HostAction.noConfusion
    rw [hcleared]
    exact ⟨fun _ h1 => absurd h1 Bool.false_ne_true, fun _ _ => .inr hnext, fun _ _ _ _ hc => absurd hc (hnone _),
      fun hc => absurd hc (hnone _), fun _ => rfl⟩

/-- Without an ENCODE no step sets INFLIGHT. -/
theorem StepsWithoutEncode.inflight {t u : State} (h : StepsWithoutEncode t u) (hidle : t.inflight = false) :
    u.inflight = false := by
  induction h with
  | here s => exact hidle
  | next s t u hnoEncode hstep _ ih =>
    refine ih (Bool.eq_false_iff.2 fun hset => ?_)
    obtain ⟨tid, uid, addr, qty, hencode⟩ := (inflightEvents s t hstep).1 hidle hset
    exact hnoEncode tid uid addr qty hencode

/-- A step whose next command is PIPE runs it. -/
theorem step_of_nextPipe {s : State} (h : s.NextCommands .pipe) : step s = execPipe (s.setPending s.pending.tail) := by
  obtain ⟨word, hnext, hdecode⟩ := h
  obtain ⟨rest, hpending⟩ := List.head?_eq_some_iff.1 hnext
  rw [step_of_cons hpending, perform_command, hdecode, hpending]
  rfl

/-- Settles O47: the first PIPE leaves INFLIGHT 0, and the steps between leave it so. -/
theorem pipeWithoutEncodeRefused : Obligations.PipeWithoutEncodeRefused := by
  intro s t u hpipe hstep hsteps hagain
  obtain ⟨-, -, -, hclears, -⟩ := inflightEvents s t hstep
  have hidle := hsteps.inflight (hclears hpipe).2
  exact (step_of_nextPipe hagain).trans (execPipe_of_idle hidle)

end Sys2Proof.Machine

/-! PROOF of the noninterference statement (70_reset_and_hazards.md section 1): each update of the state keeps agreement
where the spec specifies a value. -/

namespace Sys2Proof.Machine

/-! ## Agreement, update by update -/

namespace AgreeWhereSpecified

variable {s s' : State} (h : AgreeWhereSpecified s s')

include h

theorem tick : AgreeWhereSpecified s.tick s'.tick :=
  ⟨h.registers, h.velocities, h.request, h.receive, h.status⟩

theorem handOver (v : HostValue) : AgreeWhereSpecified (s.handOver v) (s'.handOver v) :=
  ⟨h.registers, h.velocities, h.request, h.receive, h.status⟩

theorem setStatus (kind : BitVec 3) (exc : U8) : AgreeWhereSpecified (s.setStatus kind exc) (s'.setStatus kind exc) :=
  ⟨h.registers, h.velocities, h.request, h.receive, rfl⟩

theorem clearInflight : AgreeWhereSpecified s.clearInflight s'.clearInflight :=
  ⟨h.registers, h.velocities, ⟨rfl, fun hset => absurd hset Bool.false_ne_true⟩, h.receive, h.status⟩

theorem invalidateRegisters : AgreeWhereSpecified s.invalidateRegisters s'.invalidateRegisters :=
  ⟨⟨rfl, fun i _ hi => absurd hi (Nat.not_lt_zero i)⟩, h.velocities, h.request, h.receive, h.status⟩

theorem invalidateVelocities : AgreeWhereSpecified s.invalidateVelocities s'.invalidateVelocities :=
  ⟨h.registers, ⟨rfl, fun hset => absurd hset Bool.false_ne_true⟩, h.request, h.receive, h.status⟩

theorem setRegisters {n : Nat} {value value' : Nat → S16} (hn : n ≤ 127)
    (hvalue : ∀ i, i < n → value' i = value i) :
    AgreeWhereSpecified (s.setRegisters n value) (s'.setRegisters n value') := by
  refine ⟨⟨rfl, fun i hi hcount => ?_⟩, h.velocities, h.request, h.receive, h.status⟩
  rw [s.setRegisters_rvcnt_toNat value hn] at hcount
  rw [s.setRegisters_getElem value hcount, s'.setRegisters_getElem value' hcount, hvalue i hcount]

theorem setVelocities {value value' : Fin 6 → F64} (hvalue : ∀ k, value' k = value k) :
    AgreeWhereSpecified (s.setVelocities value) (s'.setVelocities value') :=
  ⟨h.registers, ⟨rfl, fun _ => congrArg Vector.ofFn (funext hvalue)⟩, h.request, h.receive, h.status⟩

theorem finishOk : AgreeWhereSpecified (Machine.finishOk s) (Machine.finishOk s') :=
  (h.setStatus kindOk 0#8).tick

theorem raiseFailure (k : Failure) (stage : Stage) (inPipe : Bool) :
    AgreeWhereSpecified (Machine.raiseFailure k stage inPipe s) (Machine.raiseFailure k stage inPipe s') := by
  have hinvalidated : AgreeWhereSpecified (invalidateStage stage inPipe s) (invalidateStage stage inPipe s') := by
    cases stage with
    | decode =>
      cases inPipe with
      | false => exact h.invalidateRegisters
      | true => exact h.invalidateRegisters.invalidateVelocities
    | count => exact invalidateStage_count inPipe s ▸ invalidateStage_count inPipe s' ▸ h.invalidateVelocities
    | convert => exact invalidateStage_convert inPipe s ▸ invalidateStage_convert inPipe s' ▸ h.invalidateVelocities
  cases inPipe with
  | false => exact (hinvalidated.setStatus k.kind k.exc).tick
  | true => exact (hinvalidated.clearInflight.setStatus k.kind k.exc).tick

theorem loadrx (bytes : List Byte) : AgreeWhereSpecified (Machine.loadrx bytes s) (Machine.loadrx bytes s') := by
  refine ⟨h.registers, h.velocities, h.request, ⟨rfl, fun offset hoffset => ?_⟩, h.status⟩
  rw [loadrx_rxlen_toNat] at hoffset
  simp only [loadrx_read, if_pos (show offset < 263 by omega),
    List.getElem?_eq_getElem (show offset < bytes.length by omega)]
  exact ⟨_, rfl, rfl⟩

theorem encodeRequest (tid : U16) (uid : U8) (addr qty : U16) :
    AgreeWhereSpecified ((storeRequest tid uid addr qty s).latchRequest tid uid addr qty)
      ((storeRequest tid uid addr qty s').latchRequest tid uid addr qty) := by
  obtain ⟨⟨hrv, hrvcnt⟩, ⟨hvel, hvelvalid⟩, ⟨hrxlen, hrxb⟩, -, -, hstatus, -⟩ := storeRequest_frame tid uid addr qty s
  obtain ⟨⟨hrv', hrvcnt'⟩, ⟨hvel', hvelvalid'⟩, ⟨hrxlen', hrxb'⟩, -, -, hstatus', -⟩ :=
    storeRequest_frame tid uid addr qty s'
  constructor <;> simp only [State.latchRequest_rv, State.latchRequest_rvcnt, State.latchRequest_vel,
    State.latchRequest_velvalid, State.latchRequest_rxlen, State.latchRequest_rxb, State.latchRequest_status,
    State.latchRequest_txb, hrv, hrv', hrvcnt, hrvcnt', hvel, hvel', hvelvalid, hvelvalid', hrxlen, hrxlen', hrxb, hrxb',
    hstatus, hstatus']
  · exact h.registers
  · exact h.velocities
  · refine ⟨rfl, fun _ => ⟨rfl, rfl, rfl, rfl, fun offset hoffset => ?_⟩⟩
    rw [storeRequest_read, storeRequest_read, dif_pos hoffset, dif_pos hoffset]
  · exact h.receive
  · exact h.status

/-! ## What the operations read -/

theorem bufferByte_rxb {offset : Nat} (hoffset : offset < s.rxlen.toNat) :
    bufferByte .rxb offset s' = bufferByte .rxb offset s := by
  obtain ⟨b, hb, hb'⟩ := h.receive.2 offset hoffset
  rw [bufferByte_of_read (buf := .rxb) hb, bufferByte_of_read (buf := .rxb) hb']

theorem decodeTests : Machine.decodeTests s' = Machine.decodeTests s :=
  decodeTests_congr_of_received (fun _ _ hoffset => h.bufferByte_rxb hoffset) h.receive.1

theorem decodedRegisters {n : Nat} (htests : Machine.decodeTests s = .ok n) :
    AgreeWhereSpecified (s.setRegisters n (receivedValue s)) (s'.setRegisters n (receivedValue s')) :=
  h.setRegisters (decodeTests_le htests) fun _ hi =>
    receivedValue_congr_of_received (fun _ _ hoffset => h.bufferByte_rxb hoffset) htests hi

/-- With at least twelve values every lane reads valid registers only. -/
theorem lane (hcount : 12 ≤ s.rvcnt.toNat) (k : Fin 6) : Machine.lane s' k = Machine.lane s k :=
  congrArg₂ pairconv (h.registers.2 _ (by omega) (by omega)) (h.registers.2 _ (by omega) (by omega))

end AgreeWhereSpecified

/-! ## The operations -/

/-- PIPE's stages where the decode tests fail. -/
theorem pipeStages_of_error {s : State} {k : Failure} (h : decodeTests s = .error k) :
    pipeStages s = raiseFailure k .decode true s := by
  rw [pipeStages, decodeStage_of_error h]

/-- PIPE's stages after a decode of `n` values. -/
theorem pipeStages_of_ok {s : State} {n : Nat} (h : decodeTests s = .ok n) :
    pipeStages s =
      if n ≠ s.qty.toNat then raiseFailure .malformedResponse .count true (s.setRegisters n (receivedValue s))
      else if n < 12 then raiseFailure .invalidRegisterCount .convert true (s.setRegisters n (receivedValue s))
      else finishOk ((s.setRegisters n (receivedValue s)).setVelocities (lane (s.setRegisters n (receivedValue s)))) := by
  rcases pipeStages_cases s with ⟨k, hk, -⟩ | ⟨n', d, hn', -, rfl, hend⟩
  · rw [h] at hk
    cases hk
  obtain rfl : n = n' := by rw [h] at hn'; exact Except.ok.inj hn'
  rcases hend with ⟨hqty, hend⟩ | ⟨hqty, hfew, hend⟩ | ⟨hqty, hmany, hend⟩
  · rw [hend, if_pos hqty]
  · rw [hend, if_neg (not_not.2 hqty), if_pos hfew]
  · rw [hend, if_neg (not_not.2 hqty), if_neg (Nat.not_lt.2 hmany)]

/-- PIPE's stages agree when QTY does, which a request in flight makes valid. -/
theorem AgreeWhereSpecified.pipeStages {s s' : State} (h : AgreeWhereSpecified s s') (hqty : s'.qty = s.qty) :
    AgreeWhereSpecified (Machine.pipeStages s) (Machine.pipeStages s') := by
  cases htests : Machine.decodeTests s with
  | error k =>
    rw [pipeStages_of_error htests, pipeStages_of_error (h.decodeTests.trans htests)]
    exact h.raiseFailure k .decode true
  | ok n =>
    have hdecoded := h.decodedRegisters htests
    have hcount := s.setRegisters_rvcnt_toNat (receivedValue s) (decodeTests_le htests)
    rw [pipeStages_of_ok htests, pipeStages_of_ok (h.decodeTests.trans htests), hqty]
    split_ifs with hmismatch hfew
    · exact hdecoded.raiseFailure .malformedResponse .count true
    · exact hdecoded.raiseFailure .invalidRegisterCount .convert true
    · exact (hdecoded.setVelocities (hdecoded.lane (by omega))).finishOk

theorem AgreeWhereSpecified.execDecode {s s' : State} (h : AgreeWhereSpecified s s') :
    ∃ t t', Machine.execDecode s = .next t ∧ Machine.execDecode s' = .next t' ∧ AgreeWhereSpecified t t' := by
  cases htests : Machine.decodeTests s with
  | ok n =>
    exact ⟨_, _, by rw [Machine.execDecode, decodeStage_of_ok htests],
      by rw [Machine.execDecode, decodeStage_of_ok (h.decodeTests.trans htests)], (h.decodedRegisters htests).finishOk⟩
  | error k =>
    exact ⟨_, _, by rw [Machine.execDecode, decodeStage_of_error htests],
      by rw [Machine.execDecode, decodeStage_of_error (h.decodeTests.trans htests)], h.raiseFailure k .decode false⟩

theorem AgreeWhereSpecified.execConvert {s s' : State} (h : AgreeWhereSpecified s s') :
    ∃ t t', Machine.execConvert s = .next t ∧ Machine.execConvert s' = .next t' ∧ AgreeWhereSpecified t t' := by
  have hcounts := congrArg BitVec.toNat h.registers.1
  rcases execConvert_cases s with ⟨hcount, hexec⟩ | ⟨hcount, hexec⟩ <;>
    rcases execConvert_cases s' with ⟨hcount', hexec'⟩ | ⟨hcount', hexec'⟩
  · exact ⟨_, _, hexec, hexec', (h.setVelocities (h.lane hcount)).finishOk⟩
  · omega
  · omega
  · exact ⟨_, _, hexec, hexec', h.raiseFailure .invalidRegisterCount .convert false⟩

/-! ## The obligation -/

/-- No element that the spec specifies is other than its reset value, and the rest is not specified. -/
theorem agreeWhereSpecified_of_atReset {s t : State} (hs : s.AtReset) (ht : t.AtReset) : AgreeWhereSpecified s t := by
  obtain ⟨hrvcnt, hvelvalid, hinflight, hrxlen, hstatus⟩ := hs
  obtain ⟨hrvcnt', hvelvalid', hinflight', hrxlen', hstatus'⟩ := ht
  refine ⟨⟨hrvcnt'.trans hrvcnt.symm, fun i _ hi => ?_⟩, ⟨hvelvalid'.trans hvelvalid.symm, fun hset => ?_⟩,
    ⟨hinflight'.trans hinflight.symm, fun hset => ?_⟩, ⟨hrxlen'.trans hrxlen.symm, fun offset hoffset => ?_⟩,
    hstatus'.trans hstatus.symm⟩
  · rw [hrvcnt] at hi
    exact absurd hi (Nat.not_lt_zero i)
  · exact absurd (hvelvalid.symm.trans hset) Bool.false_ne_true
  · exact absurd (hinflight.symm.trans hset) Bool.false_ne_true
  · rw [hrxlen] at hoffset
    exact absurd hoffset (Nat.not_lt_zero offset)

/-- Settles O44, by the instruction. -/
theorem unspecifiedNeverMatters : Obligations.UnspecifiedNeverMatters := by
  refine ⟨fun s t => agreeWhereSpecified_of_atReset, fun i s s' h => ?_⟩
  cases i with
  | encode tid uid addr qty =>
    exact .inl ⟨_, _, exec_encode tid uid addr qty s, exec_encode tid uid addr qty s',
      (h.encodeRequest tid uid addr qty).finishOk⟩
  | decode => exact .inl h.execDecode
  | convert => exact .inl h.execConvert
  | pipe =>
    obtain ⟨hinflights, hrequest⟩ := h.request
    cases hinflight : s.inflight with
    | false => exact .inr ⟨_, execPipe_of_idle hinflight, execPipe_of_idle (hinflights.trans hinflight)⟩
    | true =>
      obtain ⟨-, -, -, hqty, -⟩ := hrequest hinflight
      exact .inl ⟨_, _, execPipe_of_inflight hinflight, execPipe_of_inflight (hinflights.trans hinflight),
        h.clearInflight.pipeStages hqty⟩
  | cmdReserved w => exact .inr ⟨_, exec_cmdReserved w s, exec_cmdReserved w s'⟩
  | frameReq tid uid addr qty =>
    exact .inl ⟨_, _, exec_frameReq tid uid addr qty s, exec_frameReq tid uid addr qty s', (h.handOver _).tick⟩
  | frameRsp | frameExc | frameIllegal | frameNone => exact .inl ⟨_, _, rfl, rfl, h.loadrx _⟩

end Sys2Proof.Machine

/-! PROOFS of the statements on the float operations (41_velocitydecoder.md section 2, R78 to R81): `round` gives a nearest
float, ties to even; what follows for the conversion, the quotient and the sum. -/

namespace Sys2Proof.Machine

namespace Float64

/-! ## A finite float as significand and place -/

/-- The exponent of the last significand bit, in units. -/
def place (x : F64) : Nat := exponent x - 1

/-- The significand with its leading bit, where there is one. -/
def significand (x : F64) : Nat := if exponent x = 0 then fraction x else 2 ^ 52 + fraction x

theorem magnitude_eq (x : F64) : magnitude x = significand x * 2 ^ place x := by
  simp only [magnitude, significand, place]
  split_ifs with h <;> simp [h]

theorem fraction_lt (x : F64) : fraction x < 2 ^ 52 := (x.extractLsb' 0 52).isLt

/-- The significand has at most 53 bits, and exactly 53 unless the place is the last one. -/
theorem significand_bounds (x : F64) : significand x < 2 ^ 53 ∧ (place x = 0 ∨ 2 ^ 52 ≤ significand x) := by
  have := fraction_lt x
  simp only [significand, place]
  split_ifs <;> omega

/-- The low 63 bits are the place and the significand as one number. -/
theorem pack_sign_significand {x : F64} (hx : finite x = true) :
    pack (sign x) (place x * 2 ^ 52 + significand x) = x := by
  have hlt := x.isLt
  have hfinite : exponent x ≠ 2047 := by simpa [finite] using hx
  have hexponent : exponent x = x.toNat / 2 ^ 52 % 2 ^ 11 := by
    rw [exponent, BitVec.extractLsb'_toNat, Nat.shiftRight_eq_div_pow]
  have hfraction : fraction x = x.toNat % 2 ^ 52 := by
    rw [fraction, BitVec.extractLsb'_toNat, Nat.shiftRight_eq_div_pow, Nat.pow_zero, Nat.div_one]
  have hbody : place x * 2 ^ 52 + significand x = exponent x * 2 ^ 52 + fraction x := by
    simp only [place, significand]
    split_ifs <;> omega
  apply BitVec.eq_of_toNat_eq
  rw [pack_toNat, hbody, sign, BitVec.msb_eq_decide]
  simp only [decide_eq_true_eq]
  split_ifs <;> omega

/-- The step of a canonical magnitude is its place. -/
theorem step_of_canonical {f k : Nat} (hf : f < 2 ^ 53) (hk : k = 0 ∨ 2 ^ 52 ≤ f) : step (f * 2 ^ k) = k := by
  rcases Nat.eq_zero_or_pos k with rfl | hpos
  · rw [Nat.pow_zero, Nat.mul_one]
    exact step_of_lt hf
  · have h52 : 2 ^ 52 ≤ f := by omega
    have hlog : Nat.log2 (f * 2 ^ k) = 52 + k := by
      rw [Nat.log2_eq_iff (by positivity)]
      constructor
      · rw [Nat.pow_add]
        exact Nat.mul_le_mul_right _ h52
      · rw [show 52 + k + 1 = 53 + k by omega, Nat.pow_add]
        exact Nat.mul_lt_mul_of_pos_right hf (by positivity)
    rw [step, hlog]
    omega

/-! ## The nearest integer -/

/-- The nearest even integer is at most half a unit off. -/
theorem nearestEven_near (n : Nat) {d : Nat} (hd : 0 < d) : 2 * ((nearestEven n d : Int) * d - n).natAbs ≤ d := by
  obtain ⟨hlo, hhi⟩ := nearestEven_bounds n hd
  zify at hlo hhi
  omega

/-- Any other integer is at least half a unit off. -/
theorem nearestEven_far (n : Nat) {d : Nat} (hd : 0 < d) {z : Int} (hz : z ≠ nearestEven n d) :
    d ≤ 2 * (z * d - n).natAbs := by
  have hnear := nearestEven_near n hd
  rcases lt_or_gt_of_ne hz with hlt | hgt
  · have hstep : (z + 1) * d ≤ (nearestEven n d : Int) * d := by gcongr; omega
    rw [add_mul, one_mul] at hstep
    omega
  · have hstep : ((nearestEven n d : Int) + 1) * d ≤ z * d := by gcongr; omega
    rw [add_mul, one_mul] at hstep
    omega

theorem nearestEven_nearest (n : Nat) {d : Nat} (hd : 0 < d) (z : Int) :
    ((nearestEven n d : Int) * d - n).natAbs ≤ (z * d - n).natAbs := by
  by_cases hz : z = nearestEven n d
  · rw [hz]
  · have hnear := nearestEven_near n hd
    have hfar := nearestEven_far n hd hz
    omega

/-- When another integer is equally near, the number is midway and the nearest even one is even. -/
theorem nearestEven_tie (n : Nat) {d : Nat} (hd : 0 < d) {z : Int} (hz : z ≠ nearestEven n d)
    (htie : (z * d - n).natAbs = ((nearestEven n d : Int) * d - n).natAbs) : nearestEven n d % 2 = 0 := by
  have hmiddle : 2 * ((nearestEven n d : Int) * d - n).natAbs = d := by
    have hnear := nearestEven_near n hd
    have hfar := nearestEven_far n hd hz
    omega
  have hdiv : ((n / d : Nat) : Int) * d + (n % d : Nat) = n := by exact_mod_cast Nat.div_add_mod' n d
  have hmod := Nat.mod_lt n hd
  rw [nearestEven] at hmiddle ⊢
  split_ifs at hmiddle ⊢ with hup
  · rw [Nat.cast_add, add_mul, Nat.cast_one, one_mul] at hmiddle
    omega
  · omega

/-! ## The parts of a rounded number: ± n / den units -/

/-- The exponent step at which n / den units are rounded. -/
def keptStep (n den : Nat) : Nat := step (n / den)

/-- The kept significand. -/
def keptSignificand (n den : Nat) : Nat := nearestEven n (den * 2 ^ keptStep n den)

theorem round_eq (negative : Bool) (num den : Nat) :
    round negative num den =
      pack negative (keptStep (num * unitsPerOne) den * 2 ^ 52 + keptSignificand (num * unitsPerOne) den) := rfl

theorem keptStep_lt {n den a : Nat} (hden : 0 < den) (h : n < den * 2 ^ a) (ha : 53 ≤ a) : keptStep n den + 52 < a := by
  have hquotient : n / den < 2 ^ a := (Nat.div_lt_iff_lt_mul hden).2 (by rwa [Nat.mul_comm])
  have hlog : Nat.log2 (n / den) < a := by
    rcases Nat.eq_zero_or_pos (n / den) with h0 | hpos
    · rw [h0, Nat.log2_zero]
      omega
    · exact (Nat.log2_lt (Nat.ne_of_gt hpos)).2 hquotient
  rw [keptStep, step]
  omega

/-- The significand of a number whose step is not 0 has 53 bits before rounding. -/
theorem keptStep_lower {n den : Nat} (hden : 0 < den) (hstep : keptStep n den ≠ 0) :
    2 ^ 52 * (den * 2 ^ keptStep n den) ≤ n := by
  rcases Nat.lt_or_ge (n / den) (2 ^ 53) with hsmall | hlarge
  · exact absurd (step_of_lt hsmall) hstep
  · obtain ⟨hlower, -⟩ := step_of_ge hlarge
    rw [Nat.le_div_iff_mul_le hden] at hlower
    calc 2 ^ 52 * (den * 2 ^ keptStep n den) = 2 ^ 52 * 2 ^ keptStep n den * den := by ring
      _ ≤ n := hlower

/-- A float whose last significand bit weighs less than 2^e is below 2^52 times it. -/
theorem magnitude_lt_of_not_dvd {y : F64} {e : Nat} (h : ¬2 ^ e ∣ magnitude y) : magnitude y < 2 ^ 52 * 2 ^ e := by
  obtain ⟨hfits, -⟩ := significand_bounds y
  rw [magnitude_eq] at h ⊢
  have hplace : place y + 1 ≤ e := by
    by_contra hge
    exact h (Dvd.dvd.mul_left (Nat.pow_dvd_pow 2 (by omega)) _)
  calc significand y * 2 ^ place y < 2 ^ 53 * 2 ^ place y := Nat.mul_lt_mul_of_pos_right hfits (Nat.two_pow_pos _)
    _ = 2 ^ 52 * 2 ^ (place y + 1) := by ring
    _ ≤ 2 ^ 52 * 2 ^ e := Nat.mul_le_mul_left _ (Nat.pow_le_pow_right (by decide) hplace)

/-- Without its sign: the kept significand at its place is as near as any float, and even where another is equally near. A
float that is no multiple of the kept place lies below 2^52 places, which is a nearer multiple. -/
theorem kept_nearest (n : Nat) {den : Nat} (hden : 0 < den) (y : F64) {v : Int} (hv : v.natAbs = magnitude y) :
    (((keptSignificand n den * 2 ^ keptStep n den : Nat) : Int) * den - n).natAbs ≤ (v * den - n).natAbs ∧
      ((v * den - n).natAbs = (((keptSignificand n den * 2 ^ keptStep n den : Nat) : Int) * den - n).natAbs →
        v ≠ (keptSignificand n den * 2 ^ keptStep n den : Nat) → keptSignificand n den % 2 = 0) := by
  have hpos : 0 < den * 2 ^ keptStep n den := Nat.mul_pos hden (Nat.two_pow_pos _)
  have hkept : ((keptSignificand n den * 2 ^ keptStep n den : Nat) : Int) * den =
      (keptSignificand n den : Int) * (den * 2 ^ keptStep n den : Nat) := by
    push_cast
    ring
  have hnearest := nearestEven_nearest n hpos
  rw [hkept]
  by_cases hdvd : ((2 ^ keptStep n den : Nat) : Int) ∣ v
  · obtain ⟨z, rfl⟩ := hdvd
    have hz : ((2 ^ keptStep n den : Nat) : Int) * z * den = z * (den * 2 ^ keptStep n den : Nat) := by
      push_cast
      ring
    rw [hz]
    refine ⟨hnearest z, fun htie hne => nearestEven_tie n hpos (fun heq => hne ?_) htie⟩
    rw [heq, mul_comm]
    exact (Nat.cast_mul _ _).symm
  · rw [Int.natCast_dvd, hv] at hdvd
    have hbelow := magnitude_lt_of_not_dvd hdvd
    have hstep : keptStep n den ≠ 0 := fun h0 => hdvd (by rw [h0]; exact one_dvd _)
    have hlower : (2 ^ 52 : Int) * (den * 2 ^ keptStep n den : Nat) ≤ n := by exact_mod_cast keptStep_lower hden hstep
    have hfar : v * den < (2 ^ 52 : Int) * (den * 2 ^ keptStep n den : Nat) := by
      calc v * den ≤ (magnitude y : Int) * den := by gcongr; omega
        _ < ((2 ^ 52 * 2 ^ keptStep n den : Nat) : Int) * den := by gcongr
        _ = _ := by push_cast; ring
    have hstrict : ((keptSignificand n den : Int) * (den * 2 ^ keptStep n den : Nat) - n).natAbs < (v * den - n).natAbs :=
      Nat.lt_of_le_of_lt (hnearest (2 ^ 52)) (by omega)
    exact ⟨Nat.le_of_lt hstrict, fun htie => absurd htie (Nat.ne_of_gt hstrict)⟩

theorem mul_two_pow_lt {n d a : Nat} (h : n < d * 2 ^ a) (b : Nat) : n * 2 ^ b < d * 2 ^ (a + b) :=
  calc n * 2 ^ b < d * 2 ^ a * 2 ^ b := Nat.mul_lt_mul_of_pos_right h (Nat.two_pow_pos b)
    _ = d * 2 ^ (a + b) := by rw [Nat.pow_add, Nat.mul_assoc]

section Rounded

variable {num den : Nat} (hden : 0 < den) (hrange : num < den * 2 ^ 1023)

include hden hrange

/-- Within the finite range the rounded number stays below infinity. -/
theorem round_body_lt :
    keptStep (num * unitsPerOne) den * 2 ^ 52 + keptSignificand (num * unitsPerOne) den < 2047 * 2 ^ 52 := by
  obtain ⟨hfits, -⟩ := kept_bounds (num * unitsPerOne) den
  have hunits : num * unitsPerOne < den * 2 ^ (1023 + 1074) := mul_two_pow_lt hrange 1074
  have hstep := keptStep_lt hden hunits (by decide)
  rw [← keptStep, ← keptSignificand] at hfits
  omega

theorem finite_round (negative : Bool) : finite (round negative num den) = true :=
  finite_pack negative (round_body_lt hden hrange)

theorem magnitude_round (negative : Bool) :
    magnitude (round negative num den) =
      keptSignificand (num * unitsPerOne) den * 2 ^ keptStep (num * unitsPerOne) den := by
  obtain ⟨hfits, hnormal⟩ := kept_bounds (num * unitsPerOne) den
  exact magnitude_pack negative hfits hnormal (round_body_lt hden hrange)

/-- The fraction of the result is even where its significand is. -/
theorem fraction_round_even (negative : Bool) (heven : keptSignificand (num * unitsPerOne) den % 2 = 0) :
    fraction (round negative num den) % 2 = 0 := by
  rw [round_eq, fraction_pack negative (Nat.le_of_lt (round_body_lt hden hrange))]
  omega

end Rounded

/-! ## Signs -/

/-- An integer without the sign, or with it. -/
def signed (negative : Bool) (v : Int) : Int := if negative then -v else v

theorem natAbs_signed (negative : Bool) (v : Int) : (signed negative v).natAbs = v.natAbs := by
  cases negative
  · rfl
  · exact Int.natAbs_neg v

theorem signed_signed (negative : Bool) (v : Int) : signed negative (signed negative v) = v := by
  cases negative
  · rfl
  · exact neg_neg v

theorem units_eq (x : F64) : units x = signed (sign x) (magnitude x) := rfl

theorem exactUnits_eq (negative : Bool) (num : Nat) :
    exactUnits negative num = signed negative (num * unitsPerOne : Nat) := rfl

theorem natAbs_units (x : F64) : (units x).natAbs = magnitude x := natAbs_signed (sign x) (magnitude x)

@[simp] theorem sign_round (negative : Bool) (num den : Nat) : sign (round negative num den) = negative := sign_pack _ _

/-- A distance to a signed value is one to its absolute value. -/
theorem natAbs_sub_signed (negative : Bool) (v w : Int) (den : Nat) :
    (v * den - signed negative w).natAbs = (signed negative v * den - w).natAbs := by
  cases negative
  · rfl
  · rw [← Int.natAbs_neg, signed, signed, if_pos rfl, if_pos rfl]
    congr 1
    ring

end Float64

open Float64

/-- Settles O17: the sign is taken off, and the kept significand is the nearest even one. -/
theorem roundIsNearestEven : Obligations.RoundIsNearestEven := by
  intro negative num den hden hrange
  refine ⟨finite_round hden hrange negative, fun y hy => ?_⟩
  have hround : signed negative (units (round negative num den)) =
      (keptSignificand (num * unitsPerOne) den * 2 ^ keptStep (num * unitsPerOne) den : Nat) := by
    rw [units_eq, sign_round, signed_signed, magnitude_round hden hrange]
  obtain ⟨hnearest, htie⟩ :=
    kept_nearest (num * unitsPerOne) hden y ((natAbs_signed negative (units y)).trans (natAbs_units y))
  rw [exactUnits_eq, natAbs_sub_signed, natAbs_sub_signed, hround]
  refine ⟨hnearest, fun heq hne => fraction_round_even hden hrange negative (htie heq fun hsame => hne ?_)⟩
  rw [← hround] at hsame
  rw [← signed_signed negative (units y), hsame, signed_signed]

namespace Float64

theorem unitsPerOne_pos : 0 < unitsPerOne := by
  unfold unitsPerOne
  positivity

/-! ## Exact cases of rounding -/

/-- An exactly representable number is kept. -/
theorem kept_exact {n den : Nat} (hden : 0 < den) (h : den * 2 ^ keptStep n den ∣ n) :
    keptSignificand n den * 2 ^ keptStep n den * den = n := by
  have hpos : 0 < den * 2 ^ keptStep n den := Nat.mul_pos hden (Nat.two_pow_pos _)
  have hkept := nearestEven_exact (n / (den * 2 ^ keptStep n den)) hpos
  rw [Nat.div_mul_cancel h, ← keptSignificand] at hkept
  rw [hkept, Nat.mul_assoc, Nat.mul_comm (2 ^ _) den, Nat.div_mul_cancel h]

theorem mul_lt_two_pow {v den a : Nat} (hden : 0 < den) (hv : v < 2 ^ 53) (ha : 53 ≤ a) : v * den < den * 2 ^ a := by
  rw [Nat.mul_comm]
  exact Nat.mul_lt_mul_of_pos_left (Nat.lt_of_lt_of_le hv (Nat.pow_le_pow_right (by decide) ha)) hden

/-- The step of an integer of at most 53 bits divides it: the last place weighs at most one. -/
theorem keptStep_dvd {v den b : Nat} (hden : 0 < den) (hv : v < 2 ^ 53) :
    den * 2 ^ keptStep (v * den * 2 ^ b) den ∣ v * den * 2 ^ b := by
  have hlt : v * den * 2 ^ b < den * 2 ^ (53 + b) :=
    mul_two_pow_lt (mul_lt_two_pow hden hv le_rfl) b
  have hstep := keptStep_lt hden hlt (by omega)
  exact Nat.mul_dvd_mul (Dvd.intro_left v rfl) (Nat.pow_dvd_pow 2 (by omega))

/-- An integer of at most 53 bits is rounded to itself. -/
theorem units_round_integer (negative : Bool) {v den : Nat} (hden : 0 < den) (hv : v < 2 ^ 53) :
    units (round negative (v * den) den) = signed negative (v * unitsPerOne : Nat) := by
  have hexact := kept_exact hden (keptStep_dvd (b := 1074) hden hv)
  have hmagnitude : keptSignificand (v * den * unitsPerOne) den * 2 ^ keptStep (v * den * unitsPerOne) den =
      v * unitsPerOne :=
    Nat.eq_of_mul_eq_mul_right hden (hexact.trans (Nat.mul_right_comm v den unitsPerOne))
  rw [units_eq, sign_round, magnitude_round hden (mul_lt_two_pow hden hv (by decide)), hmagnitude]

/-- A float is rounded to itself. -/
theorem round_magnitude {x : F64} (hx : finite x = true) : round (sign x) (magnitude x) unitsPerOne = x := by
  obtain ⟨hfits, hnormal⟩ := significand_bounds x
  have hstep : keptStep (magnitude x * unitsPerOne) unitsPerOne = place x := by
    rw [keptStep, Nat.mul_div_cancel _ unitsPerOne_pos, magnitude_eq, step_of_canonical hfits hnormal]
  have hkept : keptSignificand (magnitude x * unitsPerOne) unitsPerOne = significand x := by
    rw [keptSignificand, hstep, magnitude_eq, Nat.mul_assoc, Nat.mul_comm (2 ^ _)]
    exact nearestEven_exact _ (Nat.mul_pos unitsPerOne_pos (Nat.two_pow_pos _))
  rw [round_eq, hstep, hkept, pack_sign_significand hx]

/-! ## The operations as roundings -/

theorem div_eq {a b : F64} (ha : finite a = true) (hb : finite b = true) (hb0 : magnitude b ≠ 0) :
    div a b = round (sign a != sign b) (magnitude a) (magnitude b) := by
  simp [div, ha, hb, hb0]

theorem add_of_zero {a b : F64} (ha : finite a = true) (hb : finite b = true) (hz : units a + units b = 0) :
    add a b = pack (sign a && sign b) 0 := by
  simp [add, ha, hb, hz]

theorem add_of_ne {a b : F64} (ha : finite a = true) (hb : finite b = true) (hz : units a + units b ≠ 0) :
    add a b = round (decide (units a + units b < 0)) (units a + units b).natAbs unitsPerOne := by
  simp [add, ha, hb, hz]

theorem units_pack_zero (negative : Bool) : units (pack negative 0) = 0 := by
  have hmagnitude : magnitude (pack negative 0) = 0 := by
    cases negative <;> decide
  rw [units_eq, hmagnitude]
  cases negative <;> rfl

theorem signed_natAbs (z : Int) : signed (decide (z < 0)) z.natAbs = z := by
  rw [signed]
  split_ifs with h
  · rw [decide_eq_true_eq] at h
    omega
  · rw [decide_eq_true_eq] at h
    omega

theorem signed_mul (negative : Bool) (v w : Int) : signed negative v * w = signed negative (v * w) := by
  cases negative
  · rfl
  · exact neg_mul v w

/-- The divisor's sign is moved to the dividend. -/
theorem natAbs_sub_mul_signed (negative negative' : Bool) (v : Int) (a b u : Nat) :
    (v * signed negative' b - signed negative a * u).natAbs =
      (v * b - signed (negative != negative') (a * u : Nat)).natAbs := by
  rw [signed_mul]
  cases negative'
  · cases negative <;> simp [signed]
  · rw [← Int.natAbs_neg]
    congr 1
    cases negative <;> simp [signed] <;> ring

end Float64

/-! ## The obligations on the operations -/

/-- Settles O18: the divisor's sign is moved to the quotient, which `round` then brings nearest. -/
theorem divisionIsNearest : Obligations.DivisionIsNearest := by
  intro a b y ha hb hy hb0 hrange
  rw [div_eq ha hb hb0, units_eq a, units_eq b, natAbs_sub_mul_signed, natAbs_sub_mul_signed, ← exactUnits_eq]
  exact ((roundIsNearestEven _ _ _ (Nat.pos_of_ne_zero hb0) hrange).2 y hy).1

/-- Settles O19: the exact sum in units is a number of units, over one; a zero sum is packed as +0. -/
theorem additionIsNearest : Obligations.AdditionIsNearest := by
  intro a b ha hb hrange
  refine ⟨fun y hy => ?_, fun hz hsign => ?_⟩
  · by_cases hz : units a + units b = 0
    · rw [add_of_zero ha hb hz, units_pack_zero, hz]
      exact Nat.zero_le _
    have hexact : exactUnits (decide (units a + units b < 0)) (units a + units b).natAbs =
        (units a + units b) * (unitsPerOne : Int) := by
      rw [exactUnits_eq, Nat.cast_mul, ← signed_mul, signed_natAbs]
    obtain ⟨hnearest, -⟩ := (roundIsNearestEven (decide (units a + units b < 0)) _ _ unitsPerOne_pos hrange).2 y hy
    rw [hexact, ← add_of_ne ha hb hz, ← sub_mul, ← sub_mul, Int.natAbs_mul, Int.natAbs_mul] at hnearest
    exact Nat.le_of_mul_le_mul_right hnearest unitsPerOne_pos
  · rw [add_of_zero ha hb hz, hsign]
    rfl

end Sys2Proof.Machine

/-! PROOFS of the statements on the conversion and the pair conversion (41_velocitydecoder.md section 2, R78, R79, R83 to
R85). -/

namespace Sys2Proof.Machine

open Float64

namespace Float64

/-! ## The conversion and the scale -/

theorem natAbs_toInt_le (v : S16) : v.toInt.natAbs ≤ 2 ^ 15 := by
  have hlo := BitVec.le_toInt v
  have hhi := BitVec.toInt_lt (x := v)
  omega

@[simp] theorem sign_cvt (v : S16) : sign (cvt v) = decide (v.toInt < 0) := sign_round _ _ _

theorem cvt_eq (v : S16) : cvt v = round (decide (v.toInt < 0)) (v.toInt.natAbs * 1) 1 := by
  rw [Nat.mul_one]
  rfl

theorem finite_cvt (v : S16) : finite (cvt v) = true := by
  have hv := natAbs_toInt_le v
  rw [cvt_eq]
  exact finite_round Nat.one_pos (mul_lt_two_pow Nat.one_pos (by omega) (by decide)) _

theorem units_cvt (v : S16) : units (cvt v) = v.toInt * (unitsPerOne : Int) := by
  have hv := natAbs_toInt_le v
  rw [cvt_eq, units_round_integer _ Nat.one_pos (by omega), Nat.cast_mul, ← signed_mul, signed_natAbs]

theorem magnitude_cvt (v : S16) : magnitude (cvt v) = v.toInt.natAbs * unitsPerOne := by
  rw [← natAbs_units, units_cvt, Int.natAbs_mul, Int.natAbs_natCast]

theorem finite_scale : finite scale = true := by decide

theorem magnitude_scale : magnitude scale = 1000 * unitsPerOne := by decide +kernel

theorem sign_scale : sign scale = false := scale_parts.1

/-! ## The quotient of a pair's second part -/

/-- `cvt(F) / 1000.0` (R74). -/
def scaled (fractional : S16) : F64 := div (cvt fractional) scale

theorem magnitude_scale_pos : 0 < 1000 * unitsPerOne := Nat.mul_pos (by decide) unitsPerOne_pos

theorem scaled_eq (v : S16) :
    scaled v = round (decide (v.toInt < 0)) (v.toInt.natAbs * unitsPerOne) (1000 * unitsPerOne) := by
  rw [scaled, div_eq (finite_cvt v) finite_scale (by rw [magnitude_scale]; exact Nat.ne_of_gt magnitude_scale_pos),
    magnitude_cvt, magnitude_scale, sign_cvt, sign_scale, Bool.bne_false]

theorem scaled_range (v : S16) : v.toInt.natAbs * unitsPerOne < 1000 * unitsPerOne * 2 ^ 1023 :=
  calc v.toInt.natAbs * unitsPerOne ≤ v.toInt.natAbs * (1000 * unitsPerOne) :=
        Nat.mul_le_mul_left _ (Nat.le_mul_of_pos_left _ (by decide))
    _ < 1000 * unitsPerOne * 2 ^ 1023 :=
        mul_lt_two_pow magnitude_scale_pos (Nat.lt_of_le_of_lt (natAbs_toInt_le v) (by decide)) (by decide)

theorem finite_scaled (v : S16) : finite (scaled v) = true := by
  rw [scaled_eq]
  exact finite_round magnitude_scale_pos (scaled_range v) _

theorem sign_scaled (v : S16) : sign (scaled v) = decide (v.toInt < 0) := by
  rw [scaled_eq, sign_round]

/-- The scale divides a multiple of 1000 exactly. -/
theorem units_scaled_of_dvd {v : S16} {z : Int} (h : v.toInt = 1000 * z) : units (scaled v) = z * unitsPerOne := by
  have hv := natAbs_toInt_le v
  have hnum : v.toInt.natAbs * unitsPerOne = z.natAbs * (1000 * unitsPerOne) := by
    rw [h, Int.natAbs_mul, ← Nat.mul_assoc, Nat.mul_comm z.natAbs]
    rfl
  have hsign : decide (v.toInt < 0) = decide (z < 0) := decide_eq_decide.2 (by omega)
  rw [scaled_eq, hnum, hsign, units_round_integer _ magnitude_scale_pos (by omega), Nat.cast_mul, ← signed_mul,
    signed_natAbs]

/-- A rounded number of at least 2^52 units is off by at most 2^-53 of itself. -/
theorem kept_error {n den : Nat} (hden : 0 < den) (h : 2 ^ 52 * den ≤ n) :
    2 ^ 53 * (((keptSignificand n den * 2 ^ keptStep n den : Nat) : Int) * den - n).natAbs ≤ n := by
  have hpos : 0 < den * 2 ^ keptStep n den := Nat.mul_pos hden (Nat.two_pow_pos _)
  have hlower : 2 ^ 52 * (den * 2 ^ keptStep n den) ≤ n := by
    by_cases hstep : keptStep n den = 0
    · rw [hstep, Nat.pow_zero, Nat.mul_one]
      exact h
    · exact keptStep_lower hden hstep
  have hnear := nearestEven_near n hpos
  rw [← keptSignificand] at hnear
  have hkept : ((keptSignificand n den * 2 ^ keptStep n den : Nat) : Int) * den =
      (keptSignificand n den * (den * 2 ^ keptStep n den) : Nat) := by
    push_cast
    ring
  rw [hkept]
  omega

theorem two_pow_le_unitsPerOne {a : Nat} (h : a ≤ 1074) : 2 ^ a ≤ unitsPerOne := by
  rw [unitsPerOne]
  exact pow_le_pow_right₀ (by decide) h

theorem signed_sub (negative : Bool) (v w : Int) : signed negative v - signed negative w = signed negative (v - w) := by
  cases negative
  · rfl
  · simp only [signed, if_true]
    ring

theorem mul_signed (negative : Bool) (v w : Int) : v * signed negative w = signed negative (v * w) := by
  rw [mul_comm, signed_mul, mul_comm w]

/-- The quotient is within 2^-53 of F / 1000. -/
theorem scaled_error (v : S16) :
    2 ^ 53 * (1000 * units (scaled v) - v.toInt * (unitsPerOne : Int)).natAbs ≤ v.toInt.natAbs * unitsPerOne := by
  by_cases hv : v.toInt = 0
  · rw [units_scaled_of_dvd (z := 0) (by omega), hv, zero_mul, mul_zero]
    exact Nat.zero_le _
  have hlow : 2 ^ 52 * (1000 * unitsPerOne) ≤ v.toInt.natAbs * unitsPerOne * unitsPerOne := by
    have hge := two_pow_le_unitsPerOne (a := 62) (by decide)
    have hone : 1 * unitsPerOne ≤ v.toInt.natAbs * unitsPerOne := Nat.mul_le_mul_right _ (by omega)
    rw [← Nat.mul_assoc]
    exact Nat.mul_le_mul_right _ (by omega)
  have herror := kept_error magnitude_scale_pos hlow
  rw [← magnitude_round magnitude_scale_pos (scaled_range v) (decide (v.toInt < 0)), ← scaled_eq] at herror
  have hsigned : 1000 * units (scaled v) - v.toInt * (unitsPerOne : Int) =
      signed (decide (v.toInt < 0)) (1000 * magnitude (scaled v) - (v.toInt.natAbs * unitsPerOne : Nat)) := by
    have hexact : v.toInt * (unitsPerOne : Int) = signed (decide (v.toInt < 0)) (v.toInt.natAbs * unitsPerOne : Nat) := by
      rw [Nat.cast_mul, ← signed_mul, signed_natAbs]
    rw [hexact, units_eq, sign_scaled, mul_signed, signed_sub]
  have hfactor : (magnitude (scaled v) : Int) * (1000 * unitsPerOne : Nat) -
      (v.toInt.natAbs * unitsPerOne * unitsPerOne : Nat) =
      (1000 * magnitude (scaled v) - (v.toInt.natAbs * unitsPerOne : Nat)) * (unitsPerOne : Int) := by
    push_cast
    ring
  rw [hfactor, Int.natAbs_mul, Int.natAbs_natCast, ← Nat.mul_assoc] at herror
  rw [hsigned, natAbs_signed]
  exact Nat.le_of_mul_le_mul_right herror unitsPerOne_pos

/-! ## The sum -/

/-- The exact sum of the two parts, in units. -/
def pairSum (integer fractional : S16) : Int := units (cvt integer) + units (scaled fractional)

/-- It is I + F / 1000 but for the quotient's error: exactly 0 when the parts cancel, else not below 2^52 units; and it is
small. -/
theorem pairSum_bounds (integer fractional : S16) :
    (fractional.toInt = -1000 * integer.toInt → pairSum integer fractional = 0) ∧
      (fractional.toInt ≠ -1000 * integer.toInt → 2 ^ 52 ≤ (pairSum integer fractional).natAbs) ∧
      (pairSum integer fractional).natAbs ≤ 2 ^ 17 * unitsPerOne := by
  have hge := two_pow_le_unitsPerOne (a := 62) (by decide)
  have herror := scaled_error fractional
  have hinteger : (integer.toInt * (unitsPerOne : Int)).natAbs ≤ 2 ^ 15 * unitsPerOne := by
    rw [Int.natAbs_mul, Int.natAbs_natCast]
    exact Nat.mul_le_mul_right _ (natAbs_toInt_le integer)
  have hfractional : fractional.toInt.natAbs * unitsPerOne ≤ 2 ^ 15 * unitsPerOne :=
    Nat.mul_le_mul_right _ (natAbs_toInt_le fractional)
  have hproduct : (fractional.toInt * (unitsPerOne : Int)).natAbs = fractional.toInt.natAbs * unitsPerOne := by
    rw [Int.natAbs_mul, Int.natAbs_natCast]
  rw [pairSum, units_cvt]
  refine ⟨fun hcancel => ?_, fun hne => ?_, by omega⟩
  · rw [units_scaled_of_dvd (z := -integer.toInt) (by omega), neg_mul, add_neg_cancel]
  · have hexact : unitsPerOne ≤
        (1000 * (integer.toInt * (unitsPerOne : Int)) + fractional.toInt * (unitsPerOne : Int)).natAbs := by
      rw [← mul_assoc, ← add_mul, Int.natAbs_mul, Int.natAbs_natCast]
      exact Nat.le_mul_of_pos_left _ (by omega)
    omega

theorem pairSum_range (integer fractional : S16) :
    (units (cvt integer) + units (scaled fractional)).natAbs < unitsPerOne * 2 ^ 1023 := by
  obtain ⟨-, -, hsmall⟩ := pairSum_bounds integer fractional
  exact Nat.lt_of_le_of_lt hsmall (mul_lt_two_pow unitsPerOne_pos (by decide) (by decide))

/-- `cvt(I) + cvt(F) / 1000.0`. -/
theorem finite_pairSum (integer fractional : S16) : finite (add (cvt integer) (scaled fractional)) = true := by
  by_cases hz : units (cvt integer) + units (scaled fractional) = 0
  · rw [add_of_zero (finite_cvt integer) (finite_scaled fractional) hz]
    exact finite_pack _ (by decide)
  · rw [add_of_ne (finite_cvt integer) (finite_scaled fractional) hz]
    exact finite_round unitsPerOne_pos (pairSum_range integer fractional) _

/-- A rounded number of at least 2^52 units is normal. -/
theorem exponent_round_ne_zero (negative : Bool) {n : Nat} (hlow : 2 ^ 52 ≤ n) (hrange : n < unitsPerOne * 2 ^ 1023) :
    exponent (round negative n unitsPerOne) ≠ 0 := by
  have hbody := round_body_lt unitsPerOne_pos hrange
  have hkept : keptStep (n * unitsPerOne) unitsPerOne = 0 ∧ keptSignificand (n * unitsPerOne) unitsPerOne = n ∨
      keptStep (n * unitsPerOne) unitsPerOne ≠ 0 := by
    by_cases hstep : keptStep (n * unitsPerOne) unitsPerOne = 0
    · refine .inl ⟨hstep, ?_⟩
      rw [keptSignificand, hstep, Nat.pow_zero, Nat.mul_one, nearestEven_exact n unitsPerOne_pos]
    · exact .inr hstep
  rw [round_eq, exponent_pack negative (Nat.le_of_lt hbody)]
  omega

/-- The sign of a float that is not zero is the sign of its value. -/
theorem decide_units_neg {x : F64} (h : units x ≠ 0) : decide (units x < 0) = sign x := by
  rw [units_eq] at h ⊢
  cases hsign : sign x <;> rw [hsign, signed] at h
  · exact decide_eq_false (Int.not_lt.2 (Int.natCast_nonneg _))
  · rw [if_pos rfl] at h
    exact decide_eq_true (by rw [signed, if_pos rfl]; omega)

theorem zeroOrNormal_of_parts {x : F64} (hfinite : finite x = true) (hexponent : exponent x ≠ 0) :
    zeroOrNormal x = true := by
  have hne : exponent x ≠ 2047 := by simpa [finite] using hfinite
  simp [zeroOrNormal, hexponent, hne]

end Float64

/-- Settles O16: an integer of 16 bits is rounded to itself. -/
theorem conversionExact : Obligations.ConversionExact :=
  ⟨fun v => ⟨finite_cvt v, units_cvt v⟩, by decide +kernel⟩

/-- Settles O20: where the integer part is 0 and the fraction is not, the sum adds nothing to the quotient, and a float is
rounded to itself. -/
theorem specialCaseChangesNothing : Obligations.SpecialCaseChangesNothing := by
  intro integer fractional
  change (if integer = 0#16 ∧ fractional.toInt < 0 then scaled fractional else add (cvt integer) (scaled fractional)) =
    add (cvt integer) (scaled fractional)
  split_ifs with hspecial
  · obtain ⟨rfl, hnegative⟩ := hspecial
    have hzero : units (cvt 0#16) + units (scaled fractional) = units (scaled fractional) := by
      rw [units_cvt, BitVec.toInt_zero, zero_mul, zero_add]
    obtain ⟨-, hlow, -⟩ := pairSum_bounds 0#16 fractional
    rw [BitVec.toInt_zero, pairSum, hzero] at hlow
    have hfar := hlow (by omega)
    rw [add_of_ne (finite_cvt _) (finite_scaled _) (by rw [hzero]; omega), hzero, natAbs_units,
      decide_units_neg (by omega), round_magnitude (finite_scaled fractional)]
  · rfl

/-- The pair conversion as one sum. -/
theorem pairconv_eq (integer fractional : S16) : pairconv integer fractional = add (cvt integer) (scaled fractional) :=
  specialCaseChangesNothing integer fractional

theorem pairconv_of_cancel {integer fractional : S16} (h : fractional.toInt = -1000 * integer.toInt) :
    pairconv integer fractional = 0#64 := by
  have hsigns : (sign (cvt integer) && sign (scaled fractional)) = false := by
    rw [sign_cvt, sign_scaled, ← Bool.decide_and, decide_eq_false_iff_not]
    omega
  obtain ⟨hzero, -, -⟩ := pairSum_bounds integer fractional
  rw [pairconv_eq, add_of_zero (finite_cvt _) (finite_scaled _) (hzero h), hsigns]
  rfl

theorem exponent_pairconv_ne_zero {integer fractional : S16} (h : fractional.toInt ≠ -1000 * integer.toInt) :
    exponent (pairconv integer fractional) ≠ 0 := by
  obtain ⟨-, hlow, -⟩ := pairSum_bounds integer fractional
  have hfar : 2 ^ 52 ≤ (units (cvt integer) + units (scaled fractional)).natAbs := hlow h
  rw [pairconv_eq, add_of_ne (finite_cvt _) (finite_scaled _) (by omega)]
  exact exponent_round_ne_zero _ hfar (pairSum_range integer fractional)

/-- Settles O21: +0 where the parts cancel, else a sum of at least 2^52 units, which is normal. -/
theorem pairconvZeroOrNormal : Obligations.PairconvZeroOrNormal := by
  intro integer fractional
  by_cases hcancel : fractional.toInt = -1000 * integer.toInt
  · rw [pairconv_of_cancel hcancel]
    rfl
  · exact zeroOrNormal_of_parts (pairconv_eq integer fractional ▸ finite_pairSum integer fractional)
      (exponent_pairconv_ne_zero hcancel)

/-- Settles O22: a result with a non-zero exponent is not +0. -/
theorem pairconvZeroWhenCancelling : Obligations.PairconvZeroWhenCancelling := by
  intro integer fractional
  refine ⟨fun hzero => ?_, pairconv_of_cancel⟩
  by_contra hne
  have hexponent := exponent_pairconv_ne_zero hne
  rw [hzero] at hexponent
  exact hexponent rfl

/-! ## The range -/

/-- Rounding to a nearest value is monotone. -/
theorem le_of_nearest {a b x y d : Int} (hd : 0 < d) (hxy : x < y) (ha : (a * d - x).natAbs ≤ (b * d - x).natAbs)
    (hb : (b * d - y).natAbs ≤ (a * d - y).natAbs) : a ≤ b := by
  by_contra hlt
  have hstep : b * d < a * d := mul_lt_mul_of_pos_right (not_le.1 hlt) hd
  omega

theorem units_scale : units scale = 1000 * (unitsPerOne : Int) := by decide +kernel

theorem units_scaled_mono {v w : S16} (h : v.toInt ≤ w.toInt) : units (scaled v) ≤ units (scaled w) := by
  rcases h.eq_or_lt with heq | hlt
  · rw [BitVec.eq_of_toInt_eq heq]
  have hnearest : ∀ v w : S16, (units (scaled v) * units scale - units (cvt v) * (unitsPerOne : Int)).natAbs ≤
      (units (scaled w) * units scale - units (cvt v) * (unitsPerOne : Int)).natAbs := by
    intro v w
    refine divisionIsNearest _ _ _ (finite_cvt v) finite_scale (finite_scaled w) ?_ ?_
    · rw [magnitude_scale]
      exact Nat.ne_of_gt magnitude_scale_pos
    · rw [magnitude_scale, magnitude_cvt]
      exact scaled_range v
  have hpos : (0 : Int) < unitsPerOne := Int.natCast_pos.2 unitsPerOne_pos
  refine le_of_nearest (d := units scale) ?_ ?_ (hnearest v w) (hnearest w v)
  · rw [units_scale]
    omega
  · rw [units_cvt, units_cvt]
    exact mul_lt_mul_of_pos_right (mul_lt_mul_of_pos_right hlt hpos) hpos

theorem units_add_mono {a b a' b' : F64} (ha : finite a = true) (hb : finite b = true) (ha' : finite a' = true)
    (hb' : finite b' = true) (hrange : (units a + units b).natAbs < unitsPerOne * 2 ^ 1023)
    (hrange' : (units a' + units b').natAbs < unitsPerOne * 2 ^ 1023) (hfinite : finite (add a b) = true)
    (hfinite' : finite (add a' b') = true) (h : units a + units b ≤ units a' + units b') :
    units (add a b) ≤ units (add a' b') := by
  rcases h.eq_or_lt with heq | hlt
  · by_cases hz : units a + units b = 0
    · rw [add_of_zero ha hb hz, add_of_zero ha' hb' (heq ▸ hz), units_pack_zero, units_pack_zero]
    · rw [add_of_ne ha hb hz, add_of_ne ha' hb' (heq ▸ hz), heq]
  · have hnear := (additionIsNearest a b ha hb hrange).1 _ hfinite'
    have hnear' := (additionIsNearest a' b' ha' hb' hrange').1 _ hfinite
    omega

theorem units_pairconv_mono {integer integer' fractional fractional' : S16} (hi : integer.toInt ≤ integer'.toInt)
    (hf : fractional.toInt ≤ fractional'.toInt) :
    units (pairconv integer fractional) ≤ units (pairconv integer' fractional') := by
  have hcvt : units (cvt integer) ≤ units (cvt integer') := by
    rw [units_cvt, units_cvt]
    exact Int.mul_le_mul_of_nonneg_right hi (Int.natCast_nonneg _)
  have hscaled := units_scaled_mono hf
  rw [pairconv_eq, pairconv_eq]
  exact units_add_mono (finite_cvt _) (finite_scaled _) (finite_cvt _) (finite_scaled _) (pairSum_range _ _)
    (pairSum_range _ _) (finite_pairSum _ _) (finite_pairSum _ _) (Int.add_le_add hcvt hscaled)

/-- Settles O23: the two extreme pairs are evaluated, and the pair conversion is monotone. -/
theorem pairconvRange : Obligations.PairconvRange := by
  have hmax : pairconv (BitVec.ofInt 16 32767) (BitVec.ofInt 16 32767) = 0x40E003F88B439581#64 := by decide +kernel
  have hmin : pairconv (BitVec.ofInt 16 (-32768)) (BitVec.ofInt 16 (-32768)) = 0xC0E004189374BC6A#64 := by decide +kernel
  have hle : ∀ v : S16, v.toInt ≤ (BitVec.ofInt 16 32767).toInt := fun v => Int.le_of_lt_add_one BitVec.toInt_lt
  have hge : ∀ v : S16, (BitVec.ofInt 16 (-32768)).toInt ≤ v.toInt := fun v => BitVec.le_toInt v
  refine ⟨hmax, hmin, fun integer fractional => ⟨?_, ?_⟩⟩
  · rw [← hmin]
    exact units_pairconv_mono (hge _) (hge _)
  · rw [← hmax]
    exact units_pairconv_mono (hle _) (hle _)

end Sys2Proof.Machine

/-! PROOFS of the statements on the legal states (10_state.md sections 3 and 4, 41_velocitydecoder.md R84). -/

namespace Sys2Proof.Machine

/-! ## What keeps each part -/

theorem receiveLegal_of_empty {s : State} (hrxlen : s.rxlen = 0#9) (hrxb : s.rxb = []) : s.ReceiveLegal := by
  rw [State.ReceiveLegal, hrxlen, hrxb]
  exact ⟨by decide, Memory.wf_nil, fun offset => (decide_eq_false (Nat.not_lt_zero offset)).symm⟩

/-- An arrival lists exactly the bytes below RXLEN (R92). -/
theorem receiveLegal_loadrx (bytes : List Byte) (s : State) : (loadrx bytes s).ReceiveLegal := by
  refine ⟨?_, Memory.wf_ofBytes 0 _, fun offset => ?_⟩
  · rw [loadrx_rxlen_toNat]
    omega
  · rw [loadrx_rxlen_toNat, loadrx_read]
    split_ifs with hsize
    · rw [Bool.eq_iff_iff, Option.isSome_iff_ne_none, Ne, List.getElem?_eq_none_iff, decide_eq_true_eq]
      omega
    · exact (decide_eq_false (by omega)).symm

/-- With STATUS and the velocities legal, a step that writes neither buffer nor operand and sets no INFLIGHT keeps the
rest. -/
theorem State.Legal.of_same {s t : State} (h : s.Legal) (hstatus : t.StatusLegal) (hreceive : SameReceive s t)
    (hrequest : SameRequest s t) (hinflight : t.inflight = true → s.inflight = true) (hvelocities : t.VelocitiesLegal) :
    t.Legal := by
  obtain ⟨hrxlen, hrxb⟩ := hreceive
  obtain ⟨htxb, htid, huid, haddr, hqty⟩ := hrequest
  refine ⟨hstatus, ?_, ?_, fun hset offset hoffset => ?_, hvelocities⟩
  · rw [State.ReceiveLegal, hrxlen, hrxb]
    exact h.receive
  · rw [State.TransmitLegal, htxb]
    exact h.transmit
  · rw [htxb, htid, huid, haddr, hqty]
    exact h.request (hinflight hset) offset hoffset

theorem State.VelocitiesLegal.of_same {s t : State} (h : s.VelocitiesLegal) (hsame : SameVelocities s t) :
    t.VelocitiesLegal := by
  obtain ⟨hvel, hvelvalid⟩ := hsame
  rw [State.VelocitiesLegal, hvel, hvelvalid]
  exact h

/-- Velocities that are pair conversions are legal. -/
theorem velocitiesLegal_of_pairconv {t : State} (h : ∀ k : Fin 6, ∃ i f, t.vel[k.val] = pairconv i f) :
    t.VelocitiesLegal := by
  intro _ k
  obtain ⟨i, f, hk⟩ := h k
  rw [hk]
  exact pairconvZeroOrNormal i f

theorem velocitiesLegal_of_invalid {t : State} (h : t.velvalid = false) : t.VelocitiesLegal :=
  fun hvalid => absurd (h.symm.trans hvalid) Bool.false_ne_true

/-! ## The velocities after an instruction -/

theorem velocitiesLegal_execConvert {s t : State} (h : exec .convert s = .next t) : t.VelocitiesLegal := by
  rcases execConvert_next h with ⟨hcount, -⟩ | ⟨-, rfl⟩
  · exact velocitiesLegal_of_pairconv fun k => ⟨_, _, execConvert_vel h hcount k.isLt⟩
  · exact velocitiesLegal_of_invalid rfl

theorem velocitiesLegal_pipeStages (s : State) : (pipeStages s).VelocitiesLegal := by
  have houtcome := pipeStages_outcome s
  cases htests : decodeTests s <;> rw [htests] at houtcome
  case error k =>
    obtain ⟨-, -, hinvalid⟩ := houtcome
    exact velocitiesLegal_of_invalid hinvalid
  case ok n =>
    obtain ⟨-, -, hlater⟩ := houtcome
    split_ifs at hlater
    · exact velocitiesLegal_of_invalid hlater.2
    · exact velocitiesLegal_of_invalid hlater.2
    · obtain ⟨-, -, hlanes⟩ := hlater
      exact velocitiesLegal_of_pairconv fun k => ⟨_, _, hlanes k.val k.isLt⟩

/-! ## The instructions -/

theorem legal_encode {s : State} (h : s.Legal) (tid : U16) (uid : U8) (addr qty : U16) :
    (finishOk ((storeRequest tid uid addr qty s).latchRequest tid uid addr qty)).Legal := by
  obtain ⟨-, hvelocities, ⟨hrxlen, hrxb⟩, -⟩ := storeRequest_frame tid uid addr qty s
  obtain ⟨hwf, hbelow⟩ := h.transmit
  refine ⟨finishOk_statusLegal _, ?_,
    ⟨storeRequest_wf tid uid addr qty s hwf, storeRequest_below tid uid addr qty s hbelow⟩,
    fun _ offset hoffset => ?_, h.velocities.of_same hvelocities⟩
  · simpa only [State.ReceiveLegal, finishOk_rxlen, finishOk_rxb, State.latchRequest_rxlen, State.latchRequest_rxb, hrxlen,
      hrxb] using h.receive
  · exact (storeRequest_read tid uid addr qty s offset).trans ((dif_pos hoffset).trans (List.getElem?_eq_getElem _).symm)

theorem legal_loadrx {s : State} (h : s.Legal) (bytes : List Byte) : (loadrx bytes s).Legal :=
  ⟨h.status, receiveLegal_loadrx bytes s, h.transmit, h.request, h.velocities⟩

theorem legal_handOver {s : State} (h : s.Legal) (v : HostValue) : (s.handOver v).tick.Legal :=
  ⟨h.status, h.receive, h.transmit, h.request, h.velocities⟩

/-- The operations that are no ENCODE write neither buffer nor operand and set no INFLIGHT. -/
theorem ExecFrame.operation {i : Instr} {s t : State} (h : ExecFrame i s t)
    (hi : i = .decode ∨ i = .convert ∨ i = .pipe) :
    SameReceive s t ∧ SameRequest s t ∧ (t.inflight = true → s.inflight = true) := by
  have hinflight := h.inflight
  rcases hi with rfl | rfl | rfl
  all_goals
    refine ⟨h.receive.resolve_right (fun ⟨_, hencode⟩ => nomatch hencode),
      h.request.resolve_right (fun ⟨_, _, _, _, hencode⟩ => nomatch hencode), fun hset => ?_⟩
    rw [hset] at hinflight
  · exact hinflight.symm
  · exact hinflight.symm
  · exact nomatch hinflight

theorem State.Legal.exec {s t : State} {i : Instr} (h : s.Legal) (hexec : Machine.exec i s = .next t) : t.Legal := by
  have hframe := execFrame hexec
  rcases exec_cases hexec with ⟨tid, uid, addr, qty, rfl, rfl⟩ | ⟨rfl, hdecode⟩ | ⟨rfl, hconvert⟩ | ⟨rfl, -, rfl⟩ |
    ⟨tid, uid, addr, qty, rfl, rfl⟩ | ⟨bytes, hencode, rfl⟩
  · exact legal_encode h tid uid addr qty
  · obtain ⟨hreceive, hrequest, hinflight⟩ := hframe.operation (.inl rfl)
    have hvelocities := hframe.velocities.resolve_right (by decide)
    exact h.of_same (execDecode_statusLegal hdecode) hreceive hrequest hinflight (h.velocities.of_same hvelocities)
  · obtain ⟨hreceive, hrequest, hinflight⟩ := hframe.operation (.inr (.inl rfl))
    exact h.of_same (execConvert_statusLegal hconvert) hreceive hrequest hinflight (velocitiesLegal_execConvert hexec)
  · obtain ⟨hreceive, hrequest, hinflight⟩ := hframe.operation (.inr (.inr rfl))
    exact h.of_same (pipeStages_statusLegal _) hreceive hrequest hinflight (velocitiesLegal_pipeStages _)
  · exact legal_handOver h _
  · exact legal_loadrx h bytes

/-! ## The states that hold the reset values -/

/-- A state with the reset values and empty buffers is legal. -/
theorem legal_of_atReset {s : State} (h : s.AtReset) (htxb : s.txb = []) (hrxb : s.rxb = []) : s.Legal := by
  obtain ⟨-, hvelvalid, hinflight, hrxlen, hstatus⟩ := h
  refine ⟨?_, receiveLegal_of_empty hrxlen hrxb, ?_, fun hset => absurd (hinflight.symm.trans hset) Bool.false_ne_true,
    velocitiesLegal_of_invalid hvelvalid⟩
  · rw [State.StatusLegal, State.kind, State.exc, hstatus]
    decide
  · rw [State.TransmitLegal, htxb]
    exact ⟨Memory.wf_nil, fun _ hcell => nomatch hcell⟩

/-! ## The obligations -/

/-- Settles O46. -/
theorem resetIsLegal : Obligations.ResetIsLegal := by
  obtain ⟨hreset, -⟩ := resetStateHoldsValues
  exact legal_of_atReset hreset rfl rfl

/-- Settles O45, by what the step was. -/
theorem stepKeepsLegal : Obligations.StepKeepsLegal := by
  intro s t h hstep
  rcases step_cases hstep with ⟨-, rfl⟩ | ⟨a, rest, -, hcase⟩
  · exact h
  have hrest : (s.setPending rest).Legal := ⟨h.status, h.receive, h.transmit, h.request, h.velocities⟩
  rcases hcase with ⟨word, -, hexec⟩ | ⟨bytes, -, hexec⟩ | ⟨-, rfl⟩ | ⟨-, v, rfl⟩
  · exact hrest.exec hexec
  · exact hrest.exec hexec
  · obtain ⟨hreset, htxb, hrxb, -⟩ := resetBlock_spec (s.setPending rest)
    exact legal_of_atReset hreset htxb hrxb
  · exact legal_handOver hrest v

end Sys2Proof.Machine
